-- ==== Sys2Proof/Word.lean ====
section
/-! DEFINITION. The byte type of the line and the port, and the fixed numbers of the manual (chapters 1, 5 and 7). -/

namespace Sys2Proof

/-- One byte of the timing line or of the control port (R173). -/
abbrev Byte := BitVec 8

/-- Nanoseconds in one second. -/
abbrev nsPerSec : Nat := 1000000000

/-- A round lasts 8 ms of agreed time (chapter 1, "Rounds and slots"). -/
abbrev roundNs : Nat := 8000000

/-- A slot lasts 250 µs. -/
abbrev slotNs : Nat := 250000

/-- The intended departure of a beacon lies 20 µs after the start of its slot (R5). -/
abbrev departureNs : Nat := 20000

/-- Preamble and delimiter take 480 ns, so the frame begins this long after the slot start (R16). -/
abbrev frameStartNs : Nat := 19520

/-- The agreed clock is held in units of 10^-9 ns: this many units make 1 ns (R85; log 6). -/
abbrev unitsPerNs : Nat := 1000000000

/-- The greatest reading of the agreed clock, the last ns of round 2^48 - 1 (R85). -/
abbrev maxReading : Nat := 281474976710656 * 8000000 - 1

/-- One RC cycle counts as 62.5 ns: 125 half nanoseconds (R86, R122). -/
abbrev halfNsPerRc : Nat := 125

/-- 10 ms measured on the RC at its nominal 16 MHz (R24, R123; log 23). -/
abbrev lockTimeRc : Nat := 160000

/-- A supervisor window is 32,000 RC cycles (R118). -/
abbrev windowRc : Nat := 32000

/-- A lock takes 2,048 cycles of its source (R117). -/
abbrev lockCycles : Nat := 2048

/-- The silence time ends the anchor at 3 s (R106). -/
abbrev silenceNs : Nat := 3000000000

end Sys2Proof
end

