-- ==== Sys2Proof/Config.lean ====
section
/-! DEFINITION. What the manual leaves free: values nothing in the model fixes (logs 12 and 13). -/

namespace Sys2Proof

/-- The frame number a rephase boundary takes when R139's `k' - 1` would be -1, which no frame number is (log 12):
free, applied to the agreed reading at the boundary. -/
opaque Config.frameNumberBelowZero : Nat → Nat

/-- The low bytes sent for a value that its field of a snapshot or notice record cannot hold (R180, R181 give no
encoding; log 13): free, applied to the field's length in bytes and to the value. -/
opaque Config.unfittingField : Nat → Int → Nat

end Sys2Proof
end

