-- ==== Sys2Proof/Syntax.lean ====
section
/-! DEFINITION. The commands of the part: one constructor for each row of spec/opcode_table.json. -/

namespace Sys2Proof

/-- The time that passed since the command before this one, as the part's oscillators count it (log 1):
ns of synthesizer time that run while the synthesizer is LOCKED, and cycles of the RC, of XO and of REF. -/
structure Elapsed where
  synth : Nat
  rc : Nat
  xo : Nat
  ref : Nat
  deriving DecidableEq, Repr

/-- One command: a host command with its raw parameter bytes, a frame of the line, an event of time, of a pin or of
a reset. Every command carries the time before it. -/
inductive Instr where
  /-- CONFIGURE (R163): the parameter bytes. -/
  | configure (dt : Elapsed) (params : List Byte)
  /-- JOIN (R23). -/
  | join (dt : Elapsed) (params : List Byte)
  /-- WITHDRAW (R38). -/
  | withdraw (dt : Elapsed) (params : List Byte)
  /-- RESET (R164). -/
  | reset (dt : Elapsed) (params : List Byte)
  /-- SEED_TIME (R27). -/
  | seedTime (dt : Elapsed) (params : List Byte)
  /-- ANCHOR_LABEL (R104). -/
  | anchorLabel (dt : Elapsed) (params : List Byte)
  /-- LABEL_CHANGE (R111). -/
  | labelChange (dt : Elapsed) (params : List Byte)
  /-- SELECT_SOURCE (R127). -/
  | selectSource (dt : Elapsed) (params : List Byte)
  /-- RESYNC (R101). -/
  | resync (dt : Elapsed) (params : List Byte)
  /-- ENABLE_NOTICES (R170). -/
  | enableNotices (dt : Elapsed) (params : List Byte)
  /-- NEXT_NOTICE (R168). -/
  | nextNotice (dt : Elapsed) (params : List Byte)
  /-- READ_STATUS (R165). -/
  | readStatus (dt : Elapsed) (params : List Byte)
  /-- READ_PEER (R63). -/
  | readPeer (dt : Elapsed) (params : List Byte)
  /-- READ_GENERATOR (R146). -/
  | readGenerator (dt : Elapsed) (params : List Byte)
  /-- READ_TIME (R101). -/
  | readTime (dt : Elapsed) (params : List Byte)
  /-- UNKNOWN_COMMAND (R160): a request whose code names no command. -/
  | unknownCommand (dt : Elapsed) (code : Byte) (params : List Byte)
  /-- TRANSACTION_ABANDONED (R159): select released before the request was complete. -/
  | transactionAbandoned (dt : Elapsed)
  /-- POWER_ON_RESET (R172): `busy` says whether the select input is asserted at the reset (R159). -/
  | powerOnReset (dt : Elapsed) (busy : Bool)
  /-- STATION_RESET (R164): the reset pin, or the end of a RESET transaction; `busy` as for POWER_ON_RESET. -/
  | stationReset (dt : Elapsed) (busy : Bool)
  /-- FRAME_RECEIVED (R9): the bytes after the delimiter, and the ns of synthesizer time from the timing mark to the
  completion of the frame (R1; log 4). -/
  | frameReceived (dt : Elapsed) (bytes : List Byte) (since : Nat)
  /-- BEACON_BUILD (R15). -/
  | beaconBuild (dt : Elapsed)
  /-- FRAME_START (R16). -/
  | frameStart (dt : Elapsed)
  /-- BEACON_DEPARTURE (R16). -/
  | beaconDeparture (dt : Elapsed)
  /-- WITHDRAWN (R39): the departure at which the withdraw count reaches 2. -/
  | withdrawn (dt : Elapsed)
  /-- OWN_WINDOW_CLOSE (R18). -/
  | ownWindowClose (dt : Elapsed)
  /-- COLLISION (R40): the window close at which the collision count reaches 3. -/
  | collision (dt : Elapsed)
  /-- ROUND_END (R3). -/
  | roundEnd (dt : Elapsed)
  /-- PEER_ADMITTED (R58): the round end that admits the entry of the slot. -/
  | peerAdmitted (dt : Elapsed) (slot : Fin 32)
  /-- PEER_EXCLUDED (R59): the round end that excludes the entry of the slot. -/
  | peerExcluded (dt : Elapsed) (slot : Fin 32)
  /-- PEER_DEMOTED (R60): the round end that demotes the entry of the slot. -/
  | peerDemoted (dt : Elapsed) (slot : Fin 32)
  /-- PEER_LOST (R60): the round end that empties the silent entry of the slot. -/
  | peerLost (dt : Elapsed) (slot : Fin 32)
  /-- DELAY_ESTIMATE_EXPIRED (R56): the round end that drops the delay estimate of the slot. -/
  | delayEstimateExpired (dt : Elapsed) (slot : Fin 32)
  /-- FOUNDING_TIMEOUT (R30): the round end at which the founding timer reaches 64. -/
  | foundingTimeout (dt : Elapsed)
  /-- JOINING_SILENCE_TIMEOUT (R35): the round end at which the joining silence count reaches 16. -/
  | joiningSilenceTimeout (dt : Elapsed)
  /-- LISTEN_TIMER_EXPIRY (R26): the round end at which the listen timer reaches 0. -/
  | listenTimerExpiry (dt : Elapsed)
  /-- QUORUM (R36): the round end whose short round brings the count to 8 in AGREED. -/
  | quorum (dt : Elapsed)
  /-- DISAGREE (R36): the round end that brings the disagreement count to 3. -/
  | disagree (dt : Elapsed)
  /-- SETTLED (R33): the round end at which the settle count reaches 4. -/
  | settled (dt : Elapsed)
  /-- LABEL_APPLIED (R114). -/
  | labelApplied (dt : Elapsed)
  /-- ANCHOR_PULSE (R103). -/
  | anchorPulse (dt : Elapsed)
  /-- ANCHOR_SILENCE (R106). -/
  | anchorSilence (dt : Elapsed)
  /-- SUPERVISOR_WINDOW_END (R119). -/
  | supervisorWindowEnd (dt : Elapsed)
  /-- SYNTHESIZER_LOCKED (R117). -/
  | synthesizerLocked (dt : Elapsed)
  /-- NO_LOCK (R24). -/
  | noLock (dt : Elapsed)
  /-- LOCK_TIMEOUT (R123). -/
  | lockTimeout (dt : Elapsed)
  /-- GENERATOR_BOUNDARY (R136): the generator. -/
  | generatorBoundary (dt : Elapsed) (gen : Fin 4)
  /-- TIMECODE_WORD_SENT (R157). -/
  | timecodeWordSent (dt : Elapsed)
  /-- PIN_LOW_AGAIN (R134): the generator. -/
  | pinLowAgain (dt : Elapsed) (gen : Fin 4)
  /-- SLEW_SPENT (R93). -/
  | slewSpent (dt : Elapsed)
  deriving DecidableEq, Repr

end Sys2Proof
end

