-- ==== Sys2Proof/WellFormed.lean ====
section
/-! DEFINITION. Which commands the outside world can send: the checks on a command's operands. -/

namespace Sys2Proof

/-- A request's 2-byte length counts its parameter bytes (R177). -/
def paramsFit (params : List Byte) : Bool := decide (params.length < 65536)

/-- A frame that completes had its timing mark at most 8 ms before: 77 bytes take 12,320 ns (R1; log 4). -/
def sinceOk (since : Nat) : Bool := decide (since ≤ roundNs)

/-- The check on each command (the operands the types do not already bound). -/
def Instr.wf (i : Instr) : Bool :=
  match i with
  | .configure _ ps => paramsFit ps
  | .join _ ps => paramsFit ps
  | .withdraw _ ps => paramsFit ps
  | .reset _ ps => paramsFit ps
  | .seedTime _ ps => paramsFit ps
  | .anchorLabel _ ps => paramsFit ps
  | .labelChange _ ps => paramsFit ps
  | .selectSource _ ps => paramsFit ps
  | .resync _ ps => paramsFit ps
  | .enableNotices _ ps => paramsFit ps
  | .nextNotice _ ps => paramsFit ps
  | .readStatus _ ps => paramsFit ps
  | .readPeer _ ps => paramsFit ps
  | .readGenerator _ ps => paramsFit ps
  | .readTime _ ps => paramsFit ps
  | .unknownCommand _ c ps => paramsFit ps && (decide (c.toNat = 0) || decide (15 < c.toNat))
  | .transactionAbandoned _ => true
  | .powerOnReset _ _ => true
  | .stationReset _ _ => true
  | .frameReceived _ _ since => sinceOk since
  | .beaconBuild _ => true
  | .frameStart _ => true
  | .beaconDeparture _ => true
  | .withdrawn _ => true
  | .ownWindowClose _ => true
  | .collision _ => true
  | .roundEnd _ => true
  | .peerAdmitted _ _ => true
  | .peerExcluded _ _ => true
  | .peerDemoted _ _ => true
  | .peerLost _ _ => true
  | .delayEstimateExpired _ _ => true
  | .foundingTimeout _ => true
  | .joiningSilenceTimeout _ => true
  | .listenTimerExpiry _ => true
  | .quorum _ => true
  | .disagree _ => true
  | .settled _ => true
  | .labelApplied _ => true
  | .anchorPulse _ => true
  | .anchorSilence _ => true
  | .supervisorWindowEnd _ => true
  | .synthesizerLocked _ => true
  | .noLock _ => true
  | .lockTimeout _ => true
  | .generatorBoundary _ _ => true
  | .timecodeWordSent _ => true
  | .pinLowAgain _ _ => true
  | .slewSpent _ => true

end Sys2Proof
end

