-- ==== Sys2Proof/Decode.lean ====
section
/-! DEFINITION. The command a word spells by the opcode table's bits (the table gives no row any), and the command a request
of the control port spells (R177). -/

namespace Sys2Proof

/-- No row of spec/opcode_table.json has fixed bits or fields, so no word spells a command. -/
def decodeTableWord (_nbits _w : Nat) : Option Instr := none

/-- The command that a command code names, with its parameter bytes (R177, table of commands); a code outside it names
none (R160). -/
def commandOf (dt : Elapsed) (code : Byte) (params : List Byte) : Instr :=
  match code.toNat with
  | 1 => .configure dt params
  | 2 => .join dt params
  | 3 => .withdraw dt params
  | 4 => .reset dt params
  | 5 => .seedTime dt params
  | 6 => .anchorLabel dt params
  | 7 => .labelChange dt params
  | 8 => .selectSource dt params
  | 9 => .resync dt params
  | 10 => .enableNotices dt params
  | 11 => .nextNotice dt params
  | 12 => .readStatus dt params
  | 13 => .readPeer dt params
  | 14 => .readGenerator dt params
  | 15 => .readTime dt params
  | _ => .unknownCommand dt code params

/-- The command of a transaction in which the host has clocked `bytes` before it released select (R159, R177): the code, a
2-byte length and that many parameters; bytes past them belong to the response, and a request that is not complete is
abandoned. -/
def requestInstr (dt : Elapsed) (bytes : List Byte) : Instr :=
  match bytes with
  | code :: high :: low :: rest =>
    let length := high.toNat * 256 + low.toNat
    if length ≤ rest.length then commandOf dt code (rest.take length) else .transactionAbandoned dt
  | _ => .transactionAbandoned dt

end Sys2Proof
end

