-- ==== Sys2Proof/Machine/State.lean ====
section
/-! DEFINITION. Every piece of state the manual gives the station (INVENTORY.md, "State"), and its value after a
power-on reset. -/

namespace Sys2Proof.Machine

/-! ### Enumerations (R178 gives their codes) -/

/-- The reception modes of R4. -/
inductive ReceptionMode where
  | off
  | openMode
  | windowed
  deriving DecidableEq, Repr

/-- The nine station states (chapter 2). -/
inductive StationState where
  | standby
  | starting
  | listen
  | founding
  | joining
  | agreed
  | isolated
  | withdrawing
  | stalled
  deriving DecidableEq, Repr

/-- The causes of the transitions (R21). -/
inductive Cause where
  | joined
  | locked
  | noLock
  | expired
  | integrated
  | slotTaken
  | yielded
  | founded
  | timeout
  | collision
  | settled
  | quorum
  | disagree
  | merge
  | regained
  | withdraw
  | withdrawn
  | source
  | recovered
  deriving DecidableEq, Repr

/-- The fault reason: NONE, RESET, or the cause of the last entry into STANDBY or STALLED (R21). -/
inductive FaultReason where
  | none
  | reset
  | cause (c : Cause)
  deriving DecidableEq, Repr

/-- The station states a beacon can carry (R6). -/
inductive PeerState where
  | founding
  | joining
  | agreed
  | isolated
  | withdrawing
  deriving DecidableEq, Repr

/-- Peer entry states (R44). -/
inductive EntryState where
  | vacant
  | self
  | heard
  | counted
  | excluded
  deriving DecidableEq, Repr

/-- Observations of a round (R48). -/
inductive Observation where
  | none
  | good
  | wild
  | absent
  | leaving
  deriving DecidableEq, Repr

/-- The age of a raw lag in round closes (R50). -/
inductive LagAge where
  | zero
  | one
  | stale
  deriving DecidableEq, Repr

/-- The two outside oscillators (chapter 7). -/
inductive Source where
  | xo
  | ref
  deriving DecidableEq, Repr

/-- Health of a source (R119). -/
inductive Health where
  | disabled
  | learning
  | healthy
  | unhealthy
  deriving DecidableEq, Repr

/-- Synthesizer states (R117). -/
inductive SynthState where
  | off
  | locking
  | locked
  | relocking
  deriving DecidableEq, Repr

/-- Generator states (R134). -/
inductive GenState where
  | off
  | armed
  | running
  | stopping
  deriving DecidableEq, Repr

/-- Kind of a generator (R131). -/
inductive GenKind where
  | video
  | audio
  deriving DecidableEq, Repr

/-- What a generator does on entry into STANDBY (R142). -/
inductive OnWithdraw where
  | hold
  | stop
  deriving DecidableEq, Repr

/-- The twelve rate codes, in the order of R131's table. -/
inductive RateCode where
  | film23
  | film24
  | v25
  | v29
  | v30
  | v47
  | v48
  | v50
  | v59
  | v60
  | a48k
  | a96k
  deriving DecidableEq, Repr

/-! ### Beacons and notices -/

/-- A label notice: new offset in seconds and effective agreed second (R6). -/
structure LabelNotice where
  offset : Int
  second : Nat
  deriving DecidableEq, Repr

/-- An echo entry: peer slot, raw lag in ns, age 0 or 1 (R6, R14). -/
structure EchoEntry where
  slot : Fin 32
  lag : Int
  age : Fin 2
  deriving DecidableEq, Repr

/-- The contents of a beacon (R6); format and check belong to its bytes. -/
structure Beacon where
  state : PeerState
  slot : Fin 32
  tag : Nat
  round : Nat
  counted : Nat
  labelOffset : Int
  anchorOffset : Option Int
  notice : Option LabelNotice
  echoes : List EchoEntry
  deriving DecidableEq, Repr

/-- Where a pending label change came from (R111, R112). -/
inductive Origin where
  | originated
  | adopted (slot : Fin 32)
  deriving DecidableEq, Repr

/-- A pending label change (chapter 6). -/
structure LabelChange where
  offset : Int
  second : Nat
  origin : Origin
  deriving DecidableEq, Repr

/-- Cause carried by SOURCE_FAILED (R119). -/
inductive FailCause where
  | windows
  | lock
  deriving DecidableEq, Repr

/-- Action carried by SOURCE_FAILED (R119). -/
inductive FailAction where
  | switched
  | lost
  | unselected
  deriving DecidableEq, Repr

/-- Origin carried by STEPPED (R87). -/
inductive StepOrigin where
  | joining
  | estimate
  | founding
  deriving DecidableEq, Repr

/-- Cause carried by ANCHOR_CHANGED (R105). -/
inductive AnchorCause where
  | streak
  | tolerance
  | silence
  | clock
  | configure
  deriving DecidableEq, Repr

/-- The 27 kinds of notice with their details (R167). -/
inductive Notice where
  | restarted (powerOn : Bool)
  | stateChanged (state : StationState) (cause : Cause)
  | sourceFailed (source : Source) (cause : FailCause) (action : FailAction)
  | sourceRestored (source : Source) (selected : Bool)
  | lockFailed (source : Source)
  | slotConflict (slot : Fin 32) (tag : Option Nat)
  | stepped (origin : StepOrigin) (amount : Int)
  | merged (others contributors : Nat)
  | rephased (gen : Fin 4) (skipped : Int) (newRun : Bool)
  | peerAdmitted (slot : Fin 32) (tag : Nat)
  | peerExcluded (slot : Fin 32) (tag : Nat)
  | peerLost (slot : Fin 32) (tag : Nat)
  | peerLeft (slot : Fin 32) (tag : Nat)
  | tagClash (slot : Fin 32)
  | delayRange (slot : Fin 32) (sample : Int)
  | rateBand (band : Nat) (up : Bool)
  | rateLimit (rate : Int)
  | anchorChanged (valid : Bool) (cause : AnchorCause)
  | anchorUnlabelled (time : Nat)
  | anchorsSplit (number difference : Nat)
  | anchorsFar (figure : Int)
  | labelPending (change : LabelChange)
  | labelApplied (offset : Int) (second : Nat)
  | labelConflict (number : Nat) (discarded : Option LabelChange)
  | timecodeHeld (gen : Fin 4) (count : Nat)
  | alone
  | noSeed
  deriving DecidableEq, Repr

/-- The index of a notice's kind (R167). -/
def Notice.kind (n : Notice) : Fin 27 :=
  match n with
  | .restarted _ => 0
  | .stateChanged _ _ => 1
  | .sourceFailed _ _ _ => 2
  | .sourceRestored _ _ => 3
  | .lockFailed _ => 4
  | .slotConflict _ _ => 5
  | .stepped _ _ => 6
  | .merged _ _ => 7
  | .rephased _ _ _ => 8
  | .peerAdmitted _ _ => 9
  | .peerExcluded _ _ => 10
  | .peerLost _ _ => 11
  | .peerLeft _ _ => 12
  | .tagClash _ => 13
  | .delayRange _ _ => 14
  | .rateBand _ _ => 15
  | .rateLimit _ => 16
  | .anchorChanged _ _ => 17
  | .anchorUnlabelled _ => 18
  | .anchorsSplit _ _ => 19
  | .anchorsFar _ => 20
  | .labelPending _ => 21
  | .labelApplied _ _ => 22
  | .labelConflict _ _ => 23
  | .timecodeHeld _ _ => 24
  | .alone => 25
  | .noSeed => 26

/-! ### The configuration record (R162) -/

/-- The six settings of a generator (R131). -/
structure GenSettings where
  enable : Bool
  kind : GenKind
  rate : RateCode
  paired : Option RateCode
  delay : Nat
  onWithdraw : OnWithdraw
  deriving DecidableEq, Repr

/-- The configuration record: the 48 fields of R162, the 24 generator fields as four groups of six. -/
structure ConfigRecord where
  tag : Nat
  slot : Fin 32
  founding : Bool
  quorum : Nat
  window : Nat
  admission : Nat
  deadBand : Nat
  stepThreshold : Nat
  maxStep : Nat
  smoothing : Nat
  restartRounds : Nat
  slewLimit : Nat
  anchorEnabled : Bool
  steerLimit : Nat
  captureLimit : Nat
  agreementLimit : Nat
  labelOffset : Int
  xoEnable : Bool
  refEnable : Bool
  preferred : Source
  earlyActivation : Bool
  gens : Vector GenSettings 4
  binding : Option (Fin 4)
  noticeEnables : Vector Bool 27
  noticePriorities : Vector (Fin 4) 27
  deriving DecidableEq, Repr

/-! ### Link Unit (chapter 1) -/

/-- A pending slew: the amount chosen in ns, the part applied in units of the clock, and the round start it ends at,
in units of the clock (R93). -/
structure Slew where
  amount : Int
  applied : Int
  endAt : Nat
  deriving DecidableEq, Repr

/-- What the Link Unit takes at the timing mark of a frame (R1, R4): the reception mode and the coasting flag then, the
agreed reading then (absent while the clock is invalid), and the ns of synthesizer time since. -/
structure Mark where
  mode : ReceptionMode
  coasting : Bool
  agreed : Option Nat
  since : Nat
  deriving DecidableEq, Repr

/-- A stretch of synthesizer time in which timing marks can arrive: its first instant and its length in half ns, the
reception mode and the coasting flag over it, the agreed clock at its start, what that runs in it without a slew, and the
slew then pending (R1, R4, R85; log 4). -/
structure Stretch where
  start : Nat
  length : Nat
  mode : ReceptionMode
  coasting : Bool
  clock : Option Nat
  base : Nat
  slew : Option Slew
  deriving DecidableEq, Repr

/-- A beacon built and not yet gone: its round, and whether its frame has begun (R15 to R17). -/
structure BuiltBeacon where
  beacon : Beacon
  round : Nat
  begun : Bool
  deriving DecidableEq, Repr

/-- A frame on the line: its bytes from the preamble on (R174), the round of its beacon, and the instant of synthesizer
time (half ns) at which its last bit ends. -/
structure Transmission where
  bytes : List Byte
  round : Nat
  doneAt : Nat
  deriving DecidableEq, Repr

/-- What the own window of the current round has shown (R18); `repeated` is a second clean copy (log 18). -/
structure ReadBack where
  clean : Bool
  repeated : Bool
  other : Bool
  damaged : Bool
  deriving DecidableEq, Repr

/-- An own window that has been judged, for a frame of it that ends later: its round, the collision count before the
judgement, and what it has shown (R18; log 19). -/
structure JudgedWindow where
  round : Nat
  before : Nat
  record : ReadBack
  deriving DecidableEq, Repr

/-- The Link Unit's state. -/
structure Link where
  mode : ReceptionMode
  transmitter : Option Transmission
  lastRoundEnd : Option Nat
  listenRound : Option Nat
  arrivals : Vector Bool 32
  echoPointer : Fin 32
  built : Option BuiltBeacon
  readBack : ReadBack
  collisions : Nat
  /-- The transmit schedule: an occasion to build a beacon is open (R15; log 41). -/
  buildOpen : Bool
  /-- The rounds whose beacon has departed, the latest first (R15). -/
  departed : List Nat
  /-- The greatest reading the agreed clock has shown since it became valid: departures up to it have been passed (R15;
  log 41). -/
  furthest : Option Nat
  /-- The round in whose own window a whole beacon was sent and which is still to be judged (R18). -/
  toJudge : Option Nat
  /-- The round the Link Unit has followed the reading into (R2; log 7). -/
  followed : Option Nat
  /-- The round a forward step has left, whose round end is still to be taken at this instant (R3; log 7). -/
  owedRoundEnd : Option Nat
  /-- Steps of the clock by instant of synthesizer time and amount, for frames whose mark lies before them (log 5). -/
  recentSteps : List (Nat × Int)
  /-- The latest own window judged in this stay in WINDOWED mode (R18; log 19). -/
  judged : Option JudgedWindow
  /-- The stretches of time that timing marks of frames still being received can lie in, the latest first (log 4). -/
  trail : List Stretch
  deriving DecidableEq, Repr

/-! ### Peer Table (chapter 3) -/

/-- One entry of the Peer Table. -/
structure PeerEntry where
  state : EntryState
  tag : Option Nat
  peerState : Option PeerState
  counted : Option Nat
  observation : Observation
  deviation : Option Int
  resultObservation : Observation
  resultDeviation : Option Int
  rawLag : Option Int
  lagAge : LagAge
  delay : Option Nat
  delayAge : Nat
  goodStreak : Nat
  wildStreak : Nat
  absentStreak : Nat
  anchored : Bool
  anchorOffset : Option Int
  labelOffset : Option Int
  notice : Option LabelNotice
  deriving DecidableEq, Repr

/-- The Peer Table: 32 entries and the sample hold count. -/
structure PeerTable where
  entries : Vector PeerEntry 32
  hold : Nat
  deriving DecidableEq, Repr

/-! ### Agreement, Discipline, Station Controller, Anchor and Label Unit (chapters 4, 5, 2, 6) -/

/-- The Agreement Unit's state. -/
structure Agreement where
  estimate : Option Int
  spread : Option Int
  shortRounds : Nat
  disagreements : Nat
  deriving DecidableEq, Repr

/-- The Discipline Unit's state; the agreed clock in units of 10^-9 ns, absent while invalid. -/
structure Discipline where
  clock : Option Nat
  rate : Int
  band : Nat
  slew : Option Slew
  restart : Nat
  joiningStepTaken : Bool
  coastMark : Bool
  holdoverValue : Int
  holdoverValid : Bool
  deriving DecidableEq, Repr

/-- A seed: its time, and the RC cycles since it was given (R27). -/
structure Seed where
  seconds : Nat
  ns : Nat
  elapsedRc : Nat
  deriving DecidableEq, Repr

/-- The Station Controller's state. -/
structure Station where
  state : StationState
  faultReason : FaultReason
  listenTimer : Option Nat
  extraListen : Nat
  listenNotice : Bool
  seed : Option Seed
  foundingTimer : Nat
  settleCount : Nat
  silenceCount : Nat
  withdrawCount : Nat
  /-- RC cycles since entry into STARTING (R24). -/
  lockTime : Option Nat
  deriving DecidableEq, Repr

/-- The Anchor and Label Unit's state; the silence time in units of the clock. -/
structure Anchor where
  label : Option Nat
  offset : Option Int
  streak : Nat
  valid : Bool
  silence : Nat
  labelOffset : Int
  change : Option LabelChange
  /-- Instant of synthesizer time of the latest application of a change (R34; log 31). -/
  appliedAt : Option Nat
  deriving DecidableEq, Repr

/-! ### Source Unit (chapter 7) -/

/-- What the Source Unit holds of one source; `whole` says that it has been enabled for the whole window. -/
structure SourceRecord where
  enabled : Bool
  health : Health
  good : Nat
  bad : Nat
  count : Nat
  whole : Bool
  deriving DecidableEq, Repr

/-- The Source Unit's state. -/
structure SourceUnit where
  xo : SourceRecord
  ref : SourceRecord
  windowTimer : Nat
  selected : Source
  synth : SynthState
  lockSource : Option Source
  lockCount : Nat
  unitTimer : Option Nat
  coasting : Bool
  deriving DecidableEq, Repr

/-! ### Generator Bank and Timecode Unit (chapters 8, 9) -/

/-- The next boundary: number, boundary time in agreed ns, and scheduled instant in half ns of synthesizer time. -/
structure NextBoundary where
  number : Nat
  time : Nat
  instant : Nat
  deriving DecidableEq, Repr

/-- The latched snapshot of a boundary (R146). -/
structure Latched where
  number : Nat
  time : Nat
  state : GenState
  marker : Bool
  word : Option (BitVec 32)
  deriving DecidableEq, Repr

/-- One generator's record, its pin (high until the instant given, in half ns of synthesizer time), and the settings
of the run in progress (R145). -/
structure Generator where
  state : GenState
  frame : Option Nat
  lastBoundary : Option Nat
  next : Option NextBoundary
  rephasePending : Bool
  rephaseCount : Nat
  latched : Option Latched
  pinHighUntil : Option Nat
  run : Option GenSettings
  deriving DecidableEq, Repr

/-- A timecode word on the output, and the instant it is complete. -/
structure Sending where
  word : BitVec 32
  doneAt : Nat
  deriving DecidableEq, Repr

/-- The Timecode Unit's state; output `none` is IDLE. -/
structure Timecode where
  binding : Option (Fin 4)
  lastWord : Option (BitVec 32)
  hold : Bool
  output : Option Sending
  deriving DecidableEq, Repr

/-! ### Notice Unit and Control Port (chapter 10) -/

/-- A pending record (R166); its kind is its place in the table. -/
structure PendingRecord where
  repeats : Nat
  time : Option Nat
  detail : Notice
  deriving DecidableEq, Repr

/-- The Notice Unit's state, one place for each kind index of R167. -/
structure NoticeUnit where
  records : Vector (Option PendingRecord) 27
  enables : Vector Bool 27
  priorities : Vector (Fin 4) 27
  deriving DecidableEq, Repr

/-- The Control Port's state; the configured flag is "a record is held". -/
structure Port where
  record : Option ConfigRecord
  /-- The response of the latest transaction (R177). -/
  response : List Byte
  /-- The agreed ns latched by READ_TIME (R101). -/
  latchedTime : Option Nat
  /-- A RESET has been taken and the transaction that carried it has not ended (R164). -/
  resetTaken : Bool
  /-- A reset fell into a transaction: fill values until select is released (R159). -/
  filling : Bool
  deriving DecidableEq, Repr

/-! ### The machine -/

/-- The state of the station and the queue of commands still to be taken. -/
structure State where
  pending : List Instr
  link : Link
  peers : PeerTable
  agreement : Agreement
  discipline : Discipline
  station : Station
  anchor : Anchor
  source : SourceUnit
  /-- Synthesizer time in half ns (R122). -/
  synthTime : Nat
  gens : Vector Generator 4
  timecode : Timecode
  notices : NoticeUnit
  port : Port
  deriving DecidableEq, Repr

/-- The manual gives no command a fault: this type has no value, so the machine never stops with one. -/
inductive Fault where
  deriving DecidableEq, Repr

/-- Why a command has no answer. -/
inductive Refusal where
  /-- Raised by `exec` alone, for a command of the table without a meaning yet; safe. No arm raises it. -/
  | notModelled (mnemonic : String)
  deriving DecidableEq, Repr

/-! ### Values after a power-on reset -/

/-- An entry with every field absent (R60, R65). -/
def PeerEntry.empty : PeerEntry where
  state := .vacant
  tag := none
  peerState := none
  counted := none
  observation := .none
  deviation := none
  resultObservation := .none
  resultDeviation := none
  rawLag := none
  lagAge := .stale
  delay := none
  delayAge := 0
  goodStreak := 0
  wildStreak := 0
  absentStreak := 0
  anchored := false
  anchorOffset := none
  labelOffset := none
  notice := none

/-- The SELF entry (R45). -/
def PeerEntry.own (tag : Nat) : PeerEntry := { PeerEntry.empty with state := .self, tag := some tag }

/-- A cleared read-back record. -/
def ReadBack.cleared : ReadBack := ⟨false, false, false, false⟩

/-- R20, power-on column. -/
def Link.reset : Link where
  mode := .off
  transmitter := none
  lastRoundEnd := none
  listenRound := none
  arrivals := Vector.replicate 32 false
  echoPointer := 0
  built := none
  readBack := ReadBack.cleared
  collisions := 0
  buildOpen := false
  departed := []
  furthest := none
  toJudge := none
  followed := none
  owedRoundEnd := none
  recentSteps := []
  judged := none
  trail := []

/-- R65, power-on column. -/
def PeerTable.reset : PeerTable := ⟨Vector.replicate 32 PeerEntry.empty, 0⟩

/-- R84. -/
def Agreement.reset : Agreement := ⟨none, none, 0, 0⟩

/-- R102, power-on column. -/
def Discipline.reset : Discipline where
  clock := none
  rate := 0
  band := 0
  slew := none
  restart := 0
  joiningStepTaken := false
  coastMark := false
  holdoverValue := 0
  holdoverValid := false

/-- R43, power-on column. -/
def Station.reset : Station where
  state := .standby
  faultReason := .none
  listenTimer := none
  extraListen := 0
  listenNotice := false
  seed := none
  foundingTimer := 0
  settleCount := 0
  silenceCount := 0
  withdrawCount := 0
  lockTime := none

/-- R116, power-on column. -/
def Anchor.reset : Anchor := ⟨none, none, 0, false, 0, 0, none, none⟩

/-- R130, power-on column: XO enabled and LEARNING, REF disabled. -/
def SourceUnit.reset : SourceUnit where
  xo := ⟨true, .learning, 0, 0, 0, true⟩
  ref := ⟨false, .disabled, 0, 0, 0, false⟩
  windowTimer := 0
  selected := .xo
  synth := .off
  lockSource := none
  lockCount := 0
  unitTimer := none
  coasting := false

/-- R148. -/
def Generator.reset : Generator := ⟨.off, none, none, none, false, 0, none, none, none⟩

/-- R158, power-on column. -/
def Timecode.reset : Timecode := ⟨none, none, false, none⟩

/-- R172: no record but RESTARTED with detail POWER_ON (place 0), its time absent. -/
def NoticeUnit.reset : NoticeUnit where
  records := (Vector.replicate 27 none).set 0 (some ⟨0, none, .restarted true⟩)
  enables := Vector.replicate 27 true
  priorities := Vector.replicate 27 3

/-- R171, power-on column. -/
def Port.reset : Port := ⟨none, [], none, false, false⟩

/-- The station right after a power-on reset, with no command waiting. -/
def State.reset : State where
  pending := []
  link := Link.reset
  peers := PeerTable.reset
  agreement := Agreement.reset
  discipline := Discipline.reset
  station := Station.reset
  anchor := Anchor.reset
  source := SourceUnit.reset
  synthTime := 0
  gens := Vector.replicate 4 Generator.reset
  timecode := Timecode.reset
  notices := NoticeUnit.reset
  port := Port.reset

end Sys2Proof.Machine
end

