-- ==== Sys2Proof/Machine/Ops.lean ====
section
/-! DEFINITION. The shared operations: fixed tables, updates of the state, notices, readings of the agreed clock, and
the passing of time. -/

namespace Sys2Proof.Machine

/-! ### Fixed tables -/

/-- The table whose place `i` holds `f i`. -/
def tabulate {α : Type} (n : Nat) (f : Fin n → α) : Vector α n :=
  ⟨(List.ofFn f).toArray, by simp⟩

/-- The table with place `i` replaced. -/
def put {α : Type} {n : Nat} (v : Vector α n) (i : Fin n) (a : α) : Vector α n := v.set i.val a i.isLt

/-! ### Replacing one block of the state -/

/-- Replace the Link Unit's state. -/
def State.setLink (s : State) (l : Link) : State := { s with link := l }
/-- Replace the Peer Table. -/
def State.setPeers (s : State) (p : PeerTable) : State := { s with peers := p }
/-- Replace the Agreement Unit's state. -/
def State.setAgreement (s : State) (a : Agreement) : State := { s with agreement := a }
/-- Replace the Discipline Unit's state. -/
def State.setDiscipline (s : State) (d : Discipline) : State := { s with discipline := d }
/-- Replace the Station Controller's state. -/
def State.setStation (s : State) (t : Station) : State := { s with station := t }
/-- Replace the Anchor and Label Unit's state. -/
def State.setAnchor (s : State) (a : Anchor) : State := { s with anchor := a }
/-- Replace the Source Unit's state. -/
def State.setSource (s : State) (u : SourceUnit) : State := { s with source := u }
/-- Replace the generators. -/
def State.setGens (s : State) (g : Vector Generator 4) : State := { s with gens := g }
/-- Replace the Timecode Unit's state. -/
def State.setTimecode (s : State) (t : Timecode) : State := { s with timecode := t }
/-- Replace the Notice Unit's state. -/
def State.setNotices (s : State) (n : NoticeUnit) : State := { s with notices := n }
/-- Replace the Control Port's state. -/
def State.setPort (s : State) (p : Port) : State := { s with port := p }

/-! ### The configuration in force -/

/-- Settings of a generator without a configuration: not enabled (R148). -/
def GenSettings.blank : GenSettings := ⟨false, .video, .v25, none, 0, .stop⟩

/-- What stands for the record of an unconfigured station (R130, R148, R158, R172): XO enabled and preferred, nothing
else enabled, every notice enabled at priority 3. The numbers are the defaults of R162 (log 14). -/
def ConfigRecord.blank : ConfigRecord where
  tag := 0
  slot := 0
  founding := false
  quorum := 2
  window := 10000
  admission := 4
  deadBand := 20
  stepThreshold := 50000
  maxStep := 10000000
  smoothing := 7
  restartRounds := 16
  slewLimit := 10
  anchorEnabled := false
  steerLimit := 8
  captureLimit := 1000000000
  agreementLimit := 10000
  labelOffset := 0
  xoEnable := true
  refEnable := false
  preferred := .xo
  earlyActivation := false
  gens := Vector.replicate 4 GenSettings.blank
  binding := none
  noticeEnables := Vector.replicate 27 true
  noticePriorities := Vector.replicate 27 3

/-- The configuration the blocks read. -/
def State.config (s : State) : ConfigRecord := s.port.record.getD ConfigRecord.blank

/-- The configured flag (R171). -/
def State.configured (s : State) : Bool := s.port.record.isSome

/-- The seeded flag: a seed is held (R27). -/
def State.seeded (s : State) : Bool := s.station.seed.isSome

/-! ### Readings of the agreed clock -/

/-- The whole-ns reading every block sees, absent while the clock is invalid (R85). -/
def State.reading (s : State) : Option Nat := s.discipline.clock.map (· / unitsPerNs)

/-- The clock is valid (R85). -/
def State.clockValid (s : State) : Bool := s.discipline.clock.isSome

/-- The round that contains a reading (chapter 1, "Rounds and slots"). -/
def roundOf (reading : Nat) : Nat := reading / roundNs

/-- The slot whose window contains a reading (R2). -/
def slotOf (reading : Nat) : Fin 32 := Fin.ofNat 32 (reading % roundNs / slotNs)

/-- The round that contains the clock's reading (R2). -/
def State.round (s : State) : Option Nat := s.reading.map roundOf

/-- The intended departure of a beacon of round `n` from slot `slot` (R5). -/
def intendedDeparture (n : Nat) (slot : Fin 32) : Nat := n * roundNs + slot.val * slotNs + departureNs

/-- The instant at which the frame of round `n` begins, 480 ns before the intended departure (R16). -/
def frameStartOf (n : Nat) (slot : Fin 32) : Nat := n * roundNs + slot.val * slotNs + frameStartNs

/-- A count of clock units held within the agreed clock's range (R85). -/
def clampUnits (x : Int) : Nat := min (maxReading * unitsPerNs) x.toNat

/-! ### Station states -/

/-- The states in which a station transmits (chapter 2). -/
def StationState.transmits (st : StationState) : Bool :=
  match st with
  | .founding | .joining | .agreed | .isolated | .withdrawing => true
  | .standby | .starting | .listen | .stalled => false

/-- The reception mode of a state (R4). -/
def StationState.mode (st : StationState) : ReceptionMode :=
  match st with
  | .standby | .starting | .stalled => .off
  | .listen => .openMode
  | .founding | .joining | .agreed | .isolated | .withdrawing => .windowed

/-! ### Notices (R166, R169) -/

/-- One occurrence reaches the Notice Unit: not recorded, recorded, or merged (R166). -/
def NoticeUnit.occur (u : NoticeUnit) (n : Notice) (time : Option Nat) : NoticeUnit :=
  if u.enables[n.kind] then
    match u.records[n.kind] with
    | none => { u with records := put u.records n.kind (some ⟨0, time, n⟩) }
    | some r => { u with records := put u.records n.kind (some ⟨min 255 (r.repeats + 1), r.time, n⟩) }
  else u

/-- A block raises a notice, at the agreed time as it reads (R166). -/
def State.raise (n : Notice) (s : State) : State := s.setNotices (s.notices.occur n s.reading)

/-- Notices raised one after the other. -/
def State.raiseAll (ns : List Notice) (s : State) : State := ns.foldl (fun t n => t.raise n) s

/-- The notice line is asserted exactly while a record is pending (R169). -/
def State.noticeLine (s : State) : Bool := s.notices.records.toList.any Option.isSome

/-! ### Sources -/

/-- What the Source Unit holds of a source. -/
def SourceUnit.get (u : SourceUnit) (x : Source) : SourceRecord :=
  match x with
  | .xo => u.xo
  | .ref => u.ref

/-- Replace what the Source Unit holds of a source. -/
def SourceUnit.put (u : SourceUnit) (x : Source) (r : SourceRecord) : SourceUnit :=
  match x with
  | .xo => { u with xo := r }
  | .ref => { u with ref := r }

/-- The other source. -/
def Source.other (x : Source) : Source :=
  match x with
  | .xo => .ref
  | .ref => .xo

/-! ### Where a beacon may be built (R15; log 41) -/

/-- The reading lies in the own slot window, before the frame start of its round. -/
def inBuildSpan (slot : Fin 32) (reading : Nat) : Bool :=
  decide (slot.val * slotNs ≤ reading % roundNs) && decide (reading % roundNs < slot.val * slotNs + frameStartNs)

/-- How many own-window starts lie at or before the reading (counted from one round before the epoch). -/
def windowStarts (slot : Fin 32) (reading : Nat) : Nat := (reading + roundNs - slot.val * slotNs) / roundNs

/-- The greatest reading shown, once the clock also shows `reading` (R15). -/
def Link.shows (l : Link) (reading : Nat) : Nat := max (l.furthest.getD 0) reading

/-- The clock has already passed the departure of round `n`, whatever it reads now (R15; log 41). -/
def Link.passed (l : Link) (n : Nat) (slot : Fin 32) : Bool :=
  (l.furthest.map fun r => decide (intendedDeparture n slot ≤ r)).getD false

/-- A step or an entry that leaves the reading where a beacon may still be built opens an occasion (R15). -/
def State.openOccasion (s : State) : State :=
  match s.reading with
  | none => s
  | some a =>
    if s.station.state.transmits && !s.source.coasting && inBuildSpan s.config.slot a then
      s.setLink { s.link with buildOpen := true }
    else s

/-! ### The passing of time (log 1) -/

/-- Time measured on the RC: seed (R27), lock time (R24), supervisor window (R118), unit lock timer (R123). -/
def State.tickRc (rc : Nat) (s : State) : State :=
  { s with
    station := { s.station with
      seed := s.station.seed.map fun x => { x with elapsedRc := x.elapsedRc + rc }
      lockTime := s.station.lockTime.map (· + rc) }
    source := { s.source with
      windowTimer := s.source.windowTimer + rc
      unitTimer := s.source.unitTimer.map (· + rc) } }

/-- Cycles of a source in the elapsed time. -/
def cyclesOf (e : Elapsed) (x : Source) : Nat :=
  match x with
  | .xo => e.xo
  | .ref => e.ref

/-- The count of a source in the current window: an enabled source, from the start of its first whole window (R118). -/
def SourceRecord.tick (r : SourceRecord) (cycles : Nat) : SourceRecord :=
  if r.enabled && r.whole then { r with count := r.count + cycles } else r

/-- Cycles of the sources: window counts (R118) and the lock count (R117). -/
def State.tickSources (e : Elapsed) (s : State) : State :=
  let u := s.source
  let count :=
    match u.lockSource with
    | none => u.lockCount
    | some x =>
      match u.synth with
      | .locking | .relocking => min lockCycles (u.lockCount + cyclesOf e x)
      | .off | .locked => u.lockCount
  s.setSource { u with xo := u.xo.tick e.xo, ref := u.ref.tick e.ref, lockCount := count }

/-- Synthesizer time that runs in the elapsed time, in half ns: the synthesizer's own while LOCKED, carried on the RC
while RELOCKING (R122) and for a frame that ends after the clock is lost in STANDBY (R144), of a generator or on the
line (log 25). -/
def State.synthAdvance (e : Elapsed) (s : State) : Nat :=
  match s.source.synth with
  | .locked => 2 * e.synth
  | .relocking => halfNsPerRc * e.rc
  | .off | .locking =>
    if s.gens.toList.any (fun g => g.state == .stopping) || s.link.transmitter.isSome then halfNsPerRc * e.rc else 0

/-- What the agreed clock runs without a slew, in its units: synthesizer time with the rate adjustment, or RC time
without it while coasting (R86). -/
def State.baseAdvance (e : Elapsed) (s : State) : Nat :=
  match s.source.synth with
  | .locked => (e.synth * ((unitsPerNs : Int) + s.discipline.rate)).toNat
  | .relocking => e.rc * 62500000000
  | .off | .locking => 0

/-- The part of a slew that falls in a run of `base` units of a clock that stands at `c` (R93): in proportion, and all
that remains once the reading reaches the round start (logs 6 and 10). -/
def Slew.share (w : Slew) (c base : Nat) : Int :=
  let remaining := w.amount * unitsPerNs - w.applied
  let room := (w.endAt : Int) - c - remaining
  if room ≤ base then remaining else Int.tdiv (remaining * base) room

/-- The slew after a part of it has been applied. -/
def Slew.apply (w : Slew) (part : Int) : Slew := { w with applied := w.applied + part }

/-- Whole ns of a slew applied so far. -/
def Slew.appliedNs (w : Slew) : Int := Int.tdiv w.applied unitsPerNs

/-- The agreed clock runs: the slew is spent (R93), the held anchor offset falls with it (R107), the silence time
counts (R106), and an own-window start that is reached opens an occasion to build, unless the departure of its round has
been passed before (R15). Where the clock is held at its greatest value (R85), the slew is spent and the offset lowered by
its whole ns all the same: the model's reading (log 11). -/
def State.tickClock (e : Elapsed) (s : State) : State :=
  match s.discipline.clock with
  | none => s
  | some c =>
    let base := s.baseAdvance e
    let part := (s.discipline.slew.map fun w => w.share c base).getD 0
    let lowered := (s.discipline.slew.map fun w => (w.apply part).appliedNs - w.appliedNs).getD 0
    let c' := clampUnits (c + base + part)
    let slot := s.config.slot
    let now := c' / unitsPerNs
    let reached := decide (windowStarts slot (c / unitsPerNs) < windowStarts slot now)
    { s with
      discipline := { s.discipline with clock := some c', slew := s.discipline.slew.map (·.apply part) }
      anchor := { s.anchor with
        offset := s.anchor.offset.map (· - lowered)
        silence := min (silenceNs * unitsPerNs) (s.anchor.silence + (c' - c)) }
      link := { s.link with
        furthest := some (s.link.shows now)
        buildOpen := s.link.buildOpen ||
          (reached && s.station.state.transmits && !s.source.coasting && inBuildSpan slot now
            && !s.link.passed (roundOf now) slot) } }

/-- 8 ms of synthesizer time in half ns: no frame lasts as long, so what lies further back is before the timing mark of
every frame still being received (logs 4 and 5). -/
abbrev lineMemoryHalfNs : Nat := 16000000

/-- The elapsed time as a stretch in which timing marks can arrive. -/
def State.stretch (e : Elapsed) (s : State) : Stretch :=
  ⟨s.synthTime, s.synthAdvance e, s.link.mode, s.source.coasting, s.discipline.clock, s.baseAdvance e, s.discipline.slew⟩

/-- The stretches still to be remembered after the elapsed time; none is added while reception is OFF (R4; log 4). -/
def State.trailAfter (e : Elapsed) (s : State) : List Stretch :=
  let x := s.stretch e
  if x.mode = .off ∨ x.length = 0 then s.link.trail
  else x :: s.link.trail.filter fun y => decide (x.start + x.length < y.start + y.length + lineMemoryHalfNs)

/-- The elapsed time passes at every block that counts time. -/
def State.elapse (e : Elapsed) (s : State) : State :=
  let half := s.synthAdvance e
  let t := ((s.tickRc e.rc).tickSources e).tickClock e
  { t with
    synthTime := t.synthTime + half
    link := { t.link with listenRound := t.link.listenRound.map (· + half), trail := s.trailAfter e } }

end Sys2Proof.Machine
end

