-- ==== Sys2Proof/Machine/Peers.lean ====
section
/-! DEFINITION. The Peer Table (chapter 3): hand-off, round close, steps, the exchange of groups. -/

namespace Sys2Proof.Machine

/-- A peer is known in the entry: HEARD, COUNTED or EXCLUDED. -/
def EntryState.occupied (st : EntryState) : Bool :=
  match st with
  | .heard | .counted | .excluded => true
  | .vacant | .self => false

/-- A count that saturates at 255 (R55). -/
def saturate (n : Nat) : Nat := min 255 n

/-! ### Hand-off of a good beacon (R46 to R53) -/

/-- The restart of an entry by a new tag (R46). -/
def PeerEntry.restart (p : PeerEntry) (tag : Nat) : PeerEntry :=
  { p with
    state := .heard, tag := some tag, delay := none, delayAge := 0, goodStreak := 0, wildStreak := 0, absentStreak := 0
    anchored := false, anchorOffset := none, labelOffset := none, notice := none, counted := none, peerState := none
    rawLag := none, lagAge := .stale, observation := .none, deviation := none }

/-- A beacon brings another tag to an occupied entry. -/
def PeerEntry.restarts (p : PeerEntry) (tag : Nat) : Bool := p.state.occupied && decide (p.tag ≠ some tag)

/-- Stage 1 of R47: the tag, as R46's table has it. -/
def PeerEntry.takeTag (p : PeerEntry) (tag : Nat) : PeerEntry :=
  if p.restarts tag then p.restart tag else { p with tag := some tag }

/-- Stage 2 of R47: the reported fields. -/
def PeerEntry.takeFields (p : PeerEntry) (b : Beacon) : PeerEntry :=
  { p with
    peerState := some b.state, counted := some b.counted, labelOffset := some b.labelOffset, notice := b.notice
    anchored := b.anchorOffset.isSome, anchorOffset := b.anchorOffset }

/-- Stage 3 of R47: the raw lag and its age. -/
def PeerEntry.takeLag (p : PeerEntry) (lag : Option Int) : PeerEntry :=
  match lag with
  | some x => { p with rawLag := some x, lagAge := .zero }
  | none => { p with rawLag := none, lagAge := .stale }

/-- The raw lag an echo list reports for a slot. -/
def Beacon.echoOf (b : Beacon) (slot : Fin 32) : Option Int :=
  (b.echoes.find? (fun e => e.slot == slot)).map (·.lag)

/-- The delay sample of a hand-off, where R52 takes one: half the sum of the two raw lags, rounded toward zero. -/
def delaySample (own : Fin 32) (hold : Nat) (lag : Option Int) (b : Beacon) : Option Int :=
  match lag, b.echoOf own with
  | some x, some y => if b.state ≠ .withdrawing ∧ hold = 0 then some (Int.tdiv (x + y) 2) else none
  | _, _ => none

/-- R53: the new delay estimate, one eighth of the way to the sample, rounded toward zero. -/
def smoothDelay (held : Option Nat) (sample : Nat) : Nat :=
  match held with
  | none => sample
  | some d => ((d : Int) + Int.tdiv ((sample : Int) - d) 8).toNat

/-- Stage 4 of R47: a sample from 0 to 5,000 ns is taken into the estimate (R53). -/
def PeerEntry.takeSample (p : PeerEntry) (sample : Option Int) : PeerEntry :=
  match sample with
  | none => p
  | some x =>
    if 0 ≤ x ∧ x ≤ 5000 then { p with delay := some (smoothDelay p.delay x.toNat), delayAge := 0 } else p

/-- A sample outside 0 to 5,000 ns raises DELAY_RANGE (R53). -/
def sampleNotices (slot : Fin 32) (sample : Option Int) : List Notice :=
  match sample with
  | none => []
  | some x => if 0 ≤ x ∧ x ≤ 5000 then [] else [.delayRange slot x]

/-- Stage 5 of R47: observation and deviation, the rows of R48 in order. -/
def judge (window : Nat) (st : PeerState) (lag : Option Int) (delay : Option Nat) : Observation × Option Int :=
  match st, lag, delay with
  | .withdrawing, _, _ => (.leaving, none)
  | _, none, _ => (.good, none)
  | _, some x, some d =>
    if ((d : Int) - x).natAbs ≤ window then (.good, some ((d : Int) - x)) else (.wild, some ((d : Int) - x))
  | _, some x, none => if x.natAbs ≤ window + 5000 then (.good, none) else (.wild, none)

/-- Stage 5 of R47. -/
def PeerEntry.takeJudgement (p : PeerEntry) (j : Observation × Option Int) : PeerEntry :=
  { p with observation := j.1, deviation := j.2 }

/-- A hand-off to an entry, stages 1 to 5 of R47. -/
def PeerEntry.handOff (own : Fin 32) (window hold : Nat) (lag : Option Int) (b : Beacon) (p : PeerEntry) : PeerEntry :=
  let q := (((p.takeTag b.tag).takeFields b).takeLag lag).takeSample (delaySample own hold lag b)
  q.takeJudgement (judge window b.state lag q.delay)

/-- The notices of a hand-off: PEER_LOST of a restart (R46), then DELAY_RANGE (R53). -/
def handOffNotices (slot own : Fin 32) (hold : Nat) (lag : Option Int) (b : Beacon) (p : PeerEntry) : List Notice :=
  (if p.restarts b.tag then [.peerLost slot (p.tag.getD 0)] else []) ++ sampleNotices slot (delaySample own hold lag b)

/-- A good beacon is handed to the Peer Table entry of `slot`. -/
def State.handToPeer (slot : Fin 32) (lag : Option Int) (b : Beacon) (s : State) : State :=
  let p := s.peers.entries[slot]
  let t := s.setPeers { s.peers with
    entries := put s.peers.entries slot (p.handOff s.config.slot s.config.window s.peers.hold lag b) }
  t.raiseAll (handOffNotices slot s.config.slot s.peers.hold lag b p)

/-! ### The round close of one entry (R54 to R60) -/

/-- The observation as the close takes it (R55). -/
def PeerEntry.closed (p : PeerEntry) : Observation :=
  if p.state.occupied && p.observation == .none then .absent else p.observation

/-- Stage 1: the streaks of an occupied entry (R55). -/
def PeerEntry.countStreaks (p : PeerEntry) : PeerEntry :=
  if p.state.occupied then
    match p.closed with
    | .good => { p with goodStreak := saturate (p.goodStreak + 1), wildStreak := 0, absentStreak := 0 }
    | .wild => { p with goodStreak := 0, wildStreak := saturate (p.wildStreak + 1), absentStreak := 0 }
    | .absent => { p with goodStreak := 0, wildStreak := 0, absentStreak := saturate (p.absentStreak + 1) }
    | .leaving | .none => p
  else p

/-- The age of a raw lag after one more round close (R50). -/
def LagAge.next (a : LagAge) : LagAge :=
  match a with
  | .zero => .one
  | .one | .stale => .stale

/-- The delay estimate expires at this close: its raised age would exceed 256 (R56). -/
def PeerEntry.expires (p : PeerEntry) : Bool := p.delay.isSome && decide (256 < p.delayAge + 1)

/-- Stage 2: raw lag age and delay age; a COUNTED entry that loses its estimate enters HEARD (R56). -/
def PeerEntry.age (p : PeerEntry) : PeerEntry :=
  let q := { p with lagAge := p.lagAge.next }
  if p.expires then
    { q with delay := none, delayAge := 0, state := if p.state = .counted then .heard else p.state }
  else if p.delay.isSome then { q with delayAge := p.delayAge + 1 }
  else q

/-- The change of state an entry makes at stage 3 (R57). -/
inductive CloseChange where
  | stay
  | becomeHeard
  | clear
  | left
  | lost
  | demoted
  | excluded
  | readmitted
  | unexcluded
  | admitted
  deriving DecidableEq, Repr

/-- Stage 3: the first row of R57 that applies to the entry as stages 1 and 2 left it; `moved` says that it already
changed state at stage 2. -/
def closeChange (admission : Nat) (closed : Observation) (moved : Bool) (p : PeerEntry) : CloseChange :=
  match p.state with
  | .self => .stay
  | .vacant => if closed = .good then .becomeHeard else if closed = .absent then .stay else .clear
  | .heard =>
    if closed = .leaving then .left
    else if 16 ≤ p.absentStreak then .lost
    else if moved then .stay
    else if p.delay.isSome ∧ admission ≤ p.goodStreak then .admitted
    else .stay
  | .counted =>
    if closed = .leaving then .left
    else if 16 ≤ p.absentStreak then .lost
    else if 4 ≤ p.absentStreak then .demoted
    else if 3 ≤ p.wildStreak then .excluded
    else .stay
  | .excluded =>
    if closed = .leaving then .left
    else if 16 ≤ p.absentStreak then .lost
    else if 8 ≤ p.goodStreak then (if p.delay.isSome then .readmitted else .unexcluded)
    else .stay

/-- An emptied entry; the round result is recorded after it (R60). -/
def PeerEntry.emptied (p : PeerEntry) : PeerEntry :=
  { PeerEntry.empty with resultObservation := p.resultObservation, resultDeviation := p.resultDeviation }

/-- The entry after its change of state (R57 to R60). -/
def CloseChange.applyTo (c : CloseChange) (p : PeerEntry) : PeerEntry :=
  match c with
  | .stay => p
  | .becomeHeard => { p with state := .heard, goodStreak := 1, wildStreak := 0, absentStreak := 0 }
  | .clear | .left | .lost => p.emptied
  | .demoted => { p with state := .heard, goodStreak := 0, wildStreak := 0 }
  | .excluded => { p with state := .excluded }
  | .readmitted | .admitted => { p with state := .counted }
  | .unexcluded => { p with state := .heard }

/-- The notice a change raises (R57, R64). -/
def CloseChange.notices (c : CloseChange) (slot : Fin 32) (tag : Nat) : List Notice :=
  match c with
  | .left => [.peerLeft slot tag]
  | .lost => [.peerLost slot tag]
  | .excluded => [.peerExcluded slot tag]
  | .readmitted | .admitted => [.peerAdmitted slot tag]
  | .stay | .becomeHeard | .clear | .demoted | .unexcluded => []

/-- Stage 4: the round result is recorded and the open round begins (R55). -/
def PeerEntry.openRound (p : PeerEntry) (closed : Observation) (deviation : Option Int) : PeerEntry :=
  { p with resultObservation := closed, resultDeviation := deviation, observation := .none, deviation := none }

/-- The change of state an entry makes at the round close. -/
def PeerEntry.closing (admission : Nat) (p : PeerEntry) : CloseChange :=
  closeChange admission p.closed (p.expires && decide (p.state = .counted)) p.countStreaks.age

/-- The round close of one entry, stages 1 to 4 of R54; SELF passes unchanged (R45). -/
def PeerEntry.close (admission : Nat) (p : PeerEntry) : PeerEntry :=
  if p.state = .self then p
  else ((p.closing admission).applyTo p.countStreaks.age).openRound p.closed p.deviation

/-- The notices of an entry's round close. -/
def PeerEntry.closeNotices (admission : Nat) (slot : Fin 32) (p : PeerEntry) : List Notice :=
  (p.closing admission).notices slot (p.tag.getD 0)

/-- The round close of the Peer Table: every entry, notices in slot order, then the sample hold count (R54). -/
def State.closeTable (s : State) : State :=
  let adm := s.config.admission
  let old := s.peers.entries
  let t := s.setPeers ⟨tabulate 32 fun i => old[i].close adm, s.peers.hold - 1⟩
  t.raiseAll ((List.finRange 32).flatMap fun i => old[i].closeNotices adm i)

/-! ### Changes outside the round close -/

/-- What a step does to an entry (R51). -/
def PeerEntry.onStep (p : PeerEntry) : PeerEntry :=
  let q := { p with rawLag := none, lagAge := .stale }
  if p.observation = .good ∨ p.observation = .wild then { q with observation := .none, deviation := none } else q

/-- A step of the agreed clock reaches the Peer Table (R51). -/
def PeerTable.onStep (t : PeerTable) : PeerTable := ⟨tabulate 32 fun i => t.entries[i].onStep, 2⟩

/-- The clear on entry into STALLED: every entry but SELF (R62). -/
def PeerTable.clear (t : PeerTable) : PeerTable :=
  ⟨tabulate 32 fun i => if t.entries[i].state = .self then t.entries[i] else PeerEntry.empty, 0⟩

/-- The table rebuilt for a slot and a tag (R45, R65). -/
def PeerTable.rebuilt (slot : Fin 32) (tag : Nat) : PeerTable :=
  ⟨tabulate 32 fun i => if i = slot then PeerEntry.own tag else PeerEntry.empty, 0⟩

/-- An entry that takes a new state in the exchange of groups, its streaks at 0 (R61). -/
def PeerEntry.moveTo (p : PeerEntry) (st : EntryState) : PeerEntry :=
  { p with state := st, goodStreak := 0, wildStreak := 0, absentStreak := 0 }

/-- The exchange of groups (R61): EXCLUDED entries of the other group become COUNTED, COUNTED contributors EXCLUDED. -/
def PeerTable.exchange (t : PeerTable) (others contributors : List (Fin 32)) : PeerTable :=
  { t with entries := tabulate 32 fun i =>
      let p := t.entries[i]
      if others.contains i && p.state == .excluded then p.moveTo .counted
      else if contributors.contains i && p.state == .counted then p.moveTo .excluded
      else p }

/-- How many entries are in a state. -/
def PeerTable.number (t : PeerTable) (st : EntryState) : Nat :=
  ((List.finRange 32).filter fun i => t.entries[i].state == st).length

/-- The tag is held by an entry other than `slot` (R9, R12). -/
def PeerTable.heldElsewhere (t : PeerTable) (slot : Fin 32) (tag : Nat) : Bool :=
  (List.finRange 32).any fun i => i != slot && t.entries[i].tag == some tag

end Sys2Proof.Machine
end

