-- ==== Sys2Proof/Machine/Anchors.lean ====
section
/-! DEFINITION. The Anchor and Label Unit: captures, validity, the anchor figure, label changes (R103 to R116). -/

namespace Sys2Proof.Machine

/-- The anchor offset absent, the streak 0 and the anchor invalid (R106). -/
def Anchor.drop (a : Anchor) : Anchor := { a with offset := none, streak := 0, valid := false }

/-- The anchor is cleared, and ANCHOR_CHANGED raised if it was valid (R106, R115). -/
def State.dropAnchor (cause : AnchorCause) (s : State) : State :=
  let t := s.setAnchor s.anchor.drop
  if s.anchor.valid then t.raise (.anchorChanged false cause) else t

/-- The offset of a new pulse agrees with the one held (R105). -/
def Anchor.agrees (a : Anchor) (sample : Int) : Bool :=
  match a.offset with
  | some held => decide ((sample - held).natAbs ≤ 1000)
  | none => false

/-- The anchor after a labelled capture that gives `sample` (R105). -/
def Anchor.captured (a : Anchor) (sample : Int) : Anchor :=
  let streak := if a.agrees sample then min 3 (a.streak + 1) else 1
  { a with
    label := none, silence := 0, offset := some sample, streak := streak
    valid := if a.agrees sample then a.valid || streak == 3 else a.valid && a.offset.isNone }

/-- A labelled capture of a pulse with label `second` at reading `t` (R105). -/
def State.capture (second t : Nat) (s : State) : State :=
  let sample : Int := (second : Int) * nsPerSec - t
  let a := s.anchor.captured sample
  let u := s.setAnchor a
  if a.valid && !s.anchor.valid then u.raise (.anchorChanged true .streak)
  else if s.anchor.valid && !a.valid then u.raise (.anchorChanged false .tolerance)
  else u

/-! ### The anchor figure (R108, R109) -/

/-- The anchor offsets the station sees: those of anchored contributors, and its own when valid (R108). -/
def State.anchorOffsets (contributors : List (Fin 32)) (s : State) : List Int :=
  (contributors.filterMap fun i => if s.peers.entries[i].anchored then s.peers.entries[i].anchorOffset else none)
    ++ (if s.anchor.valid then s.anchor.offset.toList else [])

/-- The lower median of a sorted list (R108). -/
def lowerMedian (sorted : List Int) : Int := sorted.getD ((sorted.length - 1) / 2) 0

/-- Greatest minus least of a sorted list. -/
def extent (sorted : List Int) : Int := sorted.getLastD 0 - sorted.headD 0

/-- A value held within a bound on either side. -/
def bounded (limit : Nat) (x : Int) : Int := max (-(limit : Int)) (min limit x)

/-- What a list of anchor offsets gives: the steering term and the notices (R109). -/
def steering (agreementLimit captureLimit steerLimit : Nat) (offsets : List Int) : Int × List Notice :=
  let sorted := offsets.insertionSort (· ≤ ·)
  if offsets = [] then (0, [])
  else if (agreementLimit : Int) < extent sorted then (0, [.anchorsSplit offsets.length (extent sorted).toNat])
  else if captureLimit < (lowerMedian sorted).natAbs then (0, [.anchorsFar (lowerMedian sorted)])
  else (bounded steerLimit (Int.tdiv (lowerMedian sorted) 256), [])

/-- The steering of an agreement point in AGREED (R108, R109). -/
def State.steer (contributors : List (Fin 32)) (s : State) : Int × List Notice :=
  steering s.config.agreementLimit s.config.captureLimit s.config.steerLimit (s.anchorOffsets contributors)

/-! ### Label changes (R111 to R114) -/

/-- A pending label change is applied (R114). -/
def State.applyChange (c : LabelChange) (s : State) : State :=
  (s.setAnchor { s.anchor with labelOffset := c.offset, change := none, appliedAt := some s.synthTime }).raise
    (.labelApplied c.offset c.second)

/-- An effective instant has been reached by the reading. -/
def State.reached (second : Nat) (s : State) : Bool :=
  match s.reading with
  | some a => decide (second * nsPerSec ≤ a)
  | none => false

/-- The pending label change is applied if its effective instant has been reached (R114). -/
def State.applyDue (s : State) : State :=
  match s.anchor.change with
  | some c => if s.reached c.second then s.applyChange c else s
  | none => s

/-- The label notices offered by the contributing entries, less the tails of a change already applied (R112). -/
def State.offered (contributors : List (Fin 32)) (s : State) : List (Fin 32 × LabelNotice) :=
  contributors.filterMap fun i =>
    match s.peers.entries[i].anchored, s.peers.entries[i].notice with
    | true, some n => if s.reached n.second && n.offset == s.anchor.labelOffset then none else some (i, n)
    | _, _ => none

/-- A conflict of label notices (R113). -/
def State.labelConflict (number : Nat) (s : State) : State :=
  (s.setAnchor { s.anchor with change := none }).raise (.labelConflict number s.anchor.change)

/-- A notice becomes the pending change, and is applied at once if its instant has been reached (R112). -/
def State.adopt (slot : Fin 32) (n : LabelNotice) (s : State) : State :=
  let c : LabelChange := ⟨n.offset, n.second, .adopted slot⟩
  ((s.setAnchor { s.anchor with change := some c }).raise (.labelPending c)).applyDue

/-- The label notices of the contributor set at an agreement point (R112, R113). -/
def State.examineLabels (contributors : List (Fin 32)) (s : State) : State :=
  let offers := s.offered contributors
  match offers, (offers.map (·.2)).dedup with
  | (slot, n) :: _, [_] =>
    match s.anchor.change with
    | none => s.adopt slot n
    | some c => if c.offset = n.offset ∧ c.second = n.second then s else s.labelConflict 1
  | _, [] => s
  | _, distinct => s.labelConflict distinct.length

/-- How many COUNTED entries report a label offset (R34). -/
def State.votes (s : State) (offset : Int) : Nat :=
  ((List.finRange 32).filter fun i =>
    s.peers.entries[i].state == .counted && s.peers.entries[i].labelOffset == some offset).length

/-- The label offset reported by more COUNTED entries than any other value (R34). -/
def State.majorityOffset (s : State) : Option Int :=
  let reported := (List.finRange 32).filterMap fun i =>
    if s.peers.entries[i].state = .counted then s.peers.entries[i].labelOffset else none
  reported.find? fun x => reported.all fun y => x == y || decide (s.votes y < s.votes x)

/-- The label offset taken on entry into AGREED with cause SETTLED; an application at the same instant stands (R34). -/
def State.takeMajorityOffset (s : State) : State :=
  match s.majorityOffset with
  | some x => if s.anchor.appliedAt = some s.synthTime then s else s.setAnchor { s.anchor with labelOffset := x }
  | none => s

end Sys2Proof.Machine
end

