-- ==== Sys2Proof/Machine/Rates.lean ====
section
/-! DEFINITION. Rates, boundary times, audio sequences and scheduled lengths (R131 to R133, R137). -/

namespace Sys2Proof.Machine

/-- The rate of a code as the fraction p/q of boundaries per second (R131). -/
def RateCode.fraction (c : RateCode) : Nat × Nat :=
  match c with
  | .film23 => (24000, 1001)
  | .film24 => (24, 1)
  | .v25 => (25, 1)
  | .v29 => (30000, 1001)
  | .v30 => (30, 1)
  | .v47 => (48000, 1001)
  | .v48 => (48, 1)
  | .v50 => (50, 1)
  | .v59 => (60000, 1001)
  | .v60 => (60, 1)
  | .a48k => (48000, 1)
  | .a96k => (96000, 1)

/-- p of the rate p/q. -/
def RateCode.p (c : RateCode) : Nat := c.fraction.1

/-- q of the rate p/q. -/
def RateCode.q (c : RateCode) : Nat := c.fraction.2

/-- The number of a rate code (R131). -/
def RateCode.code (c : RateCode) : Nat :=
  match c with
  | .film23 => 1
  | .film24 => 2
  | .v25 => 3
  | .v29 => 4
  | .v30 => 5
  | .v47 => 6
  | .v48 => 7
  | .v50 => 8
  | .v59 => 9
  | .v60 => 10
  | .a48k => 11
  | .a96k => 12

/-- The rate a number names (R131). -/
def RateCode.ofCode (n : Nat) : Option RateCode :=
  match n with
  | 1 => some .film23
  | 2 => some .film24
  | 3 => some .v25
  | 4 => some .v29
  | 5 => some .v30
  | 6 => some .v47
  | 7 => some .v48
  | 8 => some .v50
  | 9 => some .v59
  | 10 => some .v60
  | 11 => some .a48k
  | 12 => some .a96k
  | _ => none

/-- The kind of a rate code (R131). -/
def RateCode.kind (c : RateCode) : GenKind :=
  match c with
  | .a48k | .a96k => .audio
  | .film23 | .film24 | .v25 | .v29 | .v30 | .v47 | .v48 | .v50 | .v59 | .v60 => .video

/-- floor(P), P the nominal period in ns (R131). -/
def RateCode.periodNs (c : RateCode) : Nat := c.q * nsPerSec / c.p

/-- Division rounded up. -/
def ceilDiv (a b : Nat) : Nat := (a + b - 1) / b

/-- The shortest frame: the least whole number of ns not below P/2 (R137). -/
def RateCode.shortest (c : RateCode) : Nat := ceilDiv (c.q * nsPerSec) (2 * c.p)

/-- The longest frame: the greatest whole number of ns below 3P/2 (R137). -/
def RateCode.longest (c : RateCode) : Nat := ceilDiv (3 * c.q * nsPerSec) (2 * c.p) - 1

/-- The boundary time T_k of frame number k (R132). -/
def GenSettings.boundaryTime (g : GenSettings) (k : Nat) : Nat := k * g.rate.q * nsPerSec / g.rate.p + g.delay

/-- The smallest frame number whose boundary time is at or after `x` (used by R135, R139 and R151). -/
def GenSettings.firstAtOrAfter (g : GenSettings) (x : Int) : Nat :=
  ceilDiv ((x - g.delay).toNat * g.rate.p) (g.rate.q * nsPerSec)

/-- The sequence length L: the smallest number of samples that spans whole frames of the paired rate (R133). -/
def sequenceLength (rate paired : RateCode) : Nat :=
  rate.p * paired.q / Nat.gcd (rate.p * paired.q) paired.p

/-- The boundary is a marker sample of an AUDIO generator (R133). -/
def GenSettings.marker (g : GenSettings) (k : Nat) : Bool :=
  match g.kind, g.paired with
  | .audio, some paired => k % sequenceLength g.rate paired == 0
  | _, _ => false

/-- A length of agreed time as a length of synthesizer time, at rate adjustment `rate`, rounded toward zero (R137). -/
def toSynth (rate x : Int) : Int := Int.tdiv (x * nsPerSec) (nsPerSec + rate)

/-- The least length of agreed time whose conversion is at least `len` (R139). -/
def agreedFor (rate : Int) (len : Nat) : Int := -((-((len : Int) * (nsPerSec + rate))) / nsPerSec)

/-- The converted length held within the bounds of the rate (R137). -/
def GenSettings.frameLength (g : GenSettings) (rate x : Int) : Nat :=
  max g.rate.shortest (min g.rate.longest (toSynth rate x).toNat)

/-- How long the pin stays high, in ns, for a frame of length `len` (R134). -/
def GenSettings.pulseNs (g : GenSettings) (number len : Nat) : Nat :=
  match g.kind with
  | .video => 2000
  | .audio => if g.marker number then len / 4 else len / 2

end Sys2Proof.Machine
end

