-- ==== Sys2Proof/Machine/Timecode.lean ====
section
/-! DEFINITION. The Timecode Unit: label time, count, numbering, word (R110, R150 to R157, R182). -/

namespace Sys2Proof.Machine

/-- The label offset in force at an agreed instant (R110). -/
def Anchor.offsetAt (a : Anchor) (t : Nat) : Int :=
  match a.change with
  | some c => if c.second * nsPerSec ≤ t then c.offset else a.labelOffset
  | none => a.labelOffset

/-- Ns in a label day. -/
abbrev dayNs : Int := 86400000000000

/-- The last label midnight at or before `t`, as an agreed instant (R151). -/
def labelMidnight (offset : Int) (t : Nat) : Int :=
  (t + offset * nsPerSec) / dayNs * dayNs - offset * nsPerSec

/-- The count since label midnight of boundary `n` at `t` (R151). -/
def GenSettings.count (g : GenSettings) (offset : Int) (n t : Nat) : Nat :=
  n - g.firstAtOrAfter (labelMidnight offset t)

/-- A number of the timecode with its two flags. -/
structure TimeNumber where
  hours : Nat
  minutes : Nat
  seconds : Nat
  frames : Nat
  drop : Bool
  hold : Bool
  deriving DecidableEq, Repr

/-- The numbering of the integer and the short-day rates, `r` numbers a second (R152, R154). -/
def plainNumber (r c : Nat) : TimeNumber :=
  let day := c / r
  ⟨day / 3600, day % 3600 / 60, day % 60, c % r, false, false⟩

/-- Numbers in a ten-minute block of drop-frame: `f` a second, `skip` skipped in nine of the ten minutes (R153). -/
def dropBlock (f skip : Nat) : Nat := 60 * f + 9 * (60 * f - skip)

/-- The drop-frame numbering and its day-end hold (R153, R155). -/
def dropNumber (f skip c : Nat) : TimeNumber :=
  if 144 * dropBlock f skip ≤ c then ⟨23, 59, 59, f - 1, true, true⟩
  else
    let block := c / dropBlock f skip
    let place := c % dropBlock f skip
    let minute := if place < 60 * f then 0 else (place - 60 * f) / (60 * f - skip) + 1
    let within := if place < 60 * f then place else (place - 60 * f) % (60 * f - skip) + skip
    let minutes := 10 * block + minute
    ⟨minutes / 60, minutes % 60, within / f, within % f, true, false⟩

/-- The numbering of a rate code (chapter 9, "Numbering"); AUDIO codes are never bound (R149). -/
def RateCode.number (r : RateCode) (c : Nat) : TimeNumber :=
  match r with
  | .film23 | .film24 => plainNumber 24 c
  | .v25 => plainNumber 25 c
  | .v29 => dropNumber 30 2 c
  | .v30 => plainNumber 30 c
  | .v47 | .v48 => plainNumber 48 c
  | .v50 => plainNumber 50 c
  | .v59 => dropNumber 60 4 c
  | .v60 => plainNumber 60 c
  | .a48k => plainNumber 48000 c
  | .a96k => plainNumber 96000 c

/-- The rate index carried in a word beside the drop flag (R182). -/
def RateCode.index (r : RateCode) : Nat :=
  match r with
  | .film23 | .v29 => 0
  | .film24 | .v59 => 1
  | .v25 => 2
  | .v30 => 3
  | .v47 => 4
  | .v48 => 5
  | .v50 => 6
  | .v60 | .a48k | .a96k => 7

/-- A Bool as a bit. -/
def bit (b : Bool) : Nat := if b then 1 else 0

/-- The 32 bits of a timecode word (R182). -/
def timecodeWord (t : TimeNumber) (index : Nat) : BitVec 32 :=
  BitVec.ofNat 32
    (t.hours / 10 * 2 ^ 30 + t.hours % 10 * 2 ^ 26 + t.minutes / 10 * 2 ^ 23 + t.minutes % 10 * 2 ^ 19
      + t.seconds / 10 * 2 ^ 16 + t.seconds % 10 * 2 ^ 12 + t.frames / 10 * 2 ^ 9 + t.frames % 10 * 2 ^ 5
      + bit t.drop * 16 + bit t.hold * 8 + index)

/-- A word takes 8,000 ns (R157): this many half ns of synthesizer time (log 24). -/
abbrev wordHalfNs : Nat := 16000

/-- A bit of a word takes 250 ns (R157). -/
abbrev wordBitHalfNs : Nat := 500

/-- The level of the timecode output at synthesizer time `now` (R157, R182): the bits of the word from bit 31 on, 250 ns
each, and low while IDLE. -/
def Timecode.level (t : Timecode) (now : Nat) : Bool :=
  match t.output with
  | some w => decide (now < w.doneAt) && w.word.getLsbD (31 - (now + wordHalfNs - w.doneAt) / wordBitHalfNs)
  | none => false

/-- The timecode output line. -/
def State.timecodeLine (s : State) : Bool := s.timecode.level s.synthTime

/-- The number of the word of boundary `n` at time `t`. -/
def State.timeNumber (s : State) (set : GenSettings) (n t : Nat) : TimeNumber :=
  set.rate.number (set.count (s.anchor.offsetAt t) n t)

/-- A boundary of the bound generator forms a word, begins to send it, and raises TIMECODE_HELD where R155 calls for
it (R150); any other boundary is ignored (R149). -/
def State.formWord (i : Fin 4) (set : GenSettings) (n t : Nat) (s : State) : State :=
  if s.timecode.binding = some i then
    let number := s.timeNumber set n t
    let word := timecodeWord number set.rate.index
    let s' := s.setTimecode { s.timecode with
      lastWord := some word, hold := number.hold, output := some ⟨word, s.synthTime + wordHalfNs⟩ }
    if number.hold && !s.timecode.hold then
      s'.raise (.timecodeHeld i (set.count (s.anchor.offsetAt t) n t))
    else s'
  else s

end Sys2Proof.Machine
end

