-- ==== Sys2Proof/Machine/Generators.lean ====
section
/-! DEFINITION. The Generator Bank: arming, boundaries, the rephase, ends of runs (R134 to R148). -/

namespace Sys2Proof.Machine

/-- The first boundary chosen on arming at reading `a`: the smallest frame number whose boundary time lies more than
1 ms after it (R135). -/
def GenSettings.firstBoundary (g : GenSettings) (rate : Int) (now a : Nat) : NextBoundary :=
  let k := g.firstAtOrAfter (a + 1000001)
  ⟨k, g.boundaryTime k, now + 2 * (toSynth rate (g.boundaryTime k - a)).toNat⟩

/-- A generator armed under settings `set` (R135). -/
def Generator.arm (set : GenSettings) (rate : Int) (now a : Nat) (g : Generator) : Generator :=
  { g with
    state := .armed, frame := none, lastBoundary := none, next := some (set.firstBoundary rate now a)
    rephasePending := false, run := some set }

/-- Arm generator `i` if it is enabled and OFF (R135). -/
def State.armOne (i : Fin 4) (s : State) : State :=
  match s.reading with
  | none => s
  | some a =>
    if s.config.gens[i].enable && s.gens[i].state == .off then
      s.setGens (put s.gens i (s.gens[i].arm s.config.gens[i] s.discipline.rate s.synthTime a))
    else s

/-- Every enabled generator that is OFF is armed on entry into AGREED (R135). -/
def State.armAll (s : State) : State := (List.finRange 4).foldl (fun t i => t.armOne i) s

/-- A step of the clock reaches one generator (R138). -/
def Generator.onStep (rate : Int) (now a : Nat) (g : Generator) : Generator :=
  match g.state, g.run with
  | .armed, some set => { g with next := some (set.firstBoundary rate now a), rephasePending := false }
  | .running, _ => { g with rephasePending := true }
  | _, _ => g

/-- A step of the clock to reading `a` reaches every generator (R138). -/
def State.stepGens (a : Nat) (s : State) : State :=
  s.setGens (tabulate 4 fun i => s.gens[i].onStep s.discipline.rate s.synthTime a)

/-- OFF at once: the pin goes low and the next boundary becomes absent (R144); frame number and last boundary stay as the
run left them (log 46). -/
def Generator.cut (g : Generator) : Generator := { g with state := .off, next := none, pinHighUntil := none }

/-- The on-withdraw setting applied on entry into STANDBY (R142). -/
def Generator.withdraw (how : OnWithdraw) (g : Generator) : Generator :=
  match how, g.state with
  | .stop, .armed => g.cut
  | .stop, .running => { g with state := .stopping }
  | _, _ => g

/-- Entry into STANDBY, other than by a reset (R142). -/
def State.withdrawGens (s : State) : State :=
  s.setGens (tabulate 4 fun i => s.gens[i].withdraw s.config.gens[i].onWithdraw)

/-- A run is ended: RUNNING becomes STOPPING, ARMED goes OFF at once (R144 clock lost, R145). -/
def Generator.endRun (g : Generator) : Generator :=
  match g.state with
  | .running => { g with state := .stopping }
  | .armed => g.cut
  | .off | .stopping => g

/-- The clock is lost in STANDBY (R144). -/
def State.endRuns (s : State) : State := s.setGens (tabulate 4 fun i => s.gens[i].endRun)

/-- CONFIGURE at a generator (R145). -/
def Generator.configured (g : Generator) : Generator :=
  { g.endRun with rephasePending := false, rephaseCount := 0, latched := none }

/-- Every generator OFF at once (R144). -/
def State.cutGens (s : State) : State := s.setGens (tabulate 4 fun i => s.gens[i].cut)

/-! ### Boundaries -/

/-- How a boundary is numbered and what follows it: its number and time, the number and time of the next boundary, and
the length of the frame in ns of synthesizer time; `rephase` carries the frames skipped. -/
structure Numbering where
  number : Nat
  time : Nat
  nextNumber : Nat
  nextTime : Nat
  length : Nat
  rephase : Option Int
  deriving DecidableEq, Repr

/-- An ordinary boundary keeps the number it was scheduled with (R136). -/
def GenSettings.ordinary (g : GenSettings) (rate : Int) (nb : NextBoundary) (a : Nat) : Numbering :=
  let t := g.boundaryTime (nb.number + 1)
  ⟨nb.number, nb.time, nb.number + 1, t, g.frameLength rate (t - a), none⟩

/-- The smallest frame number whose candidate length is at least the shortest frame (k' of R139). -/
def GenSettings.rephaseNext (g : GenSettings) (rate : Int) (a : Nat) : Nat :=
  g.firstAtOrAfter (a + agreedFor rate g.rate.shortest)

/-- A rephase boundary finds its place on the new clock (R139). Where k' is 0, the number k' - 1 is none that a frame
can have, and is free (log 12). -/
def GenSettings.rephased (g : GenSettings) (rate : Int) (nb : NextBoundary) (a : Nat) : Numbering :=
  let k := g.rephaseNext rate a
  let n := if k = 0 then Config.frameNumberBelowZero a else k - 1
  ⟨n, g.boundaryTime n, k, g.boundaryTime k, min g.rate.longest (toSynth rate (g.boundaryTime k - a)).toNat,
    some ((k : Int) - 1 - nb.number)⟩

/-- The numbering of a boundary: a rephase where one is pending (R136 stage 1). -/
def Generator.numbering (g : Generator) (set : GenSettings) (rate : Int) (nb : NextBoundary) (a : Nat) : Numbering :=
  if g.rephasePending then set.rephased rate nb a else set.ordinary rate nb a

/-- The generator after a boundary numbered `m`: number, pin, latch and schedule (R136). -/
def Generator.took (g : Generator) (set : GenSettings) (m : Numbering) (now : Nat) (word : Option (BitVec 32)) : Generator :=
  { g with
    state := .running, frame := some m.number, lastBoundary := some m.time
    next := some ⟨m.nextNumber, m.nextTime, now + 2 * m.length⟩
    rephasePending := false
    rephaseCount := if m.rephase.isSome then min 65535 (g.rephaseCount + 1) else g.rephaseCount
    latched := some ⟨m.number, m.time, .running, set.marker m.number, word⟩
    pinHighUntil := some (now + 2 * set.pulseNs m.number m.length) }

/-- The notice of a rephase (R139). -/
def Numbering.notices (m : Numbering) (i : Fin 4) : List Notice :=
  match m.rephase with
  | some k => [.rephased i k (decide (k < 0))]
  | none => []

/-- The word of a boundary, for its latch: present when the generator is bound (R146, R150). -/
def State.wordAt (s : State) (i : Fin 4) (set : GenSettings) (n t : Nat) : Option (BitVec 32) :=
  if s.timecode.binding = some i then some (timecodeWord (s.timeNumber set n t) set.rate.index) else none

/-- A boundary of a running generator: REPHASED, the word, then pin, latch and schedule (R136, R139). -/
def State.runBoundary (i : Fin 4) (set : GenSettings) (nb : NextBoundary) (a : Nat) (s : State) : State :=
  let m := s.gens[i].numbering set s.discipline.rate nb a
  let t := (s.raiseAll (m.notices i)).formWord i set m.number m.time
  t.setGens (put t.gens i (s.gens[i].took set m s.synthTime (s.wordAt i set m.number m.time)))

/-- The boundary that ends a run: OFF, no pulse, the latch shows what was scheduled (R136; log 35). Frame number and last
boundary stay those of the last RUNNING boundary (log 46). -/
def Generator.ended (g : Generator) (set : GenSettings) (nb : NextBoundary) : Generator :=
  { g with
    state := .off, next := none
    latched := some ⟨nb.number, nb.time, .off, set.marker nb.number, none⟩ }

/-- A STOPPING generator takes its last boundary (R143); in AGREED an enabled one is armed at once (R135). -/
def State.endBoundary (i : Fin 4) (set : GenSettings) (nb : NextBoundary) (s : State) : State :=
  let t := s.setGens (put s.gens i (s.gens[i].ended set nb))
  if t.station.state = .agreed then t.armOne i else t

/-- Generator `i` takes the boundary it has scheduled (R136). -/
def State.takeBoundary (i : Fin 4) (s : State) : State :=
  match s.gens[i].next, s.gens[i].run with
  | some nb, some set =>
    match s.gens[i].state with
    | .stopping => s.endBoundary i set nb
    | .armed | .running =>
      match s.reading with
      | some a => s.runBoundary i set nb a
      | none => s
    | .off => s
  | _, _ => s

/-- A boundary of generator `i` is due: its scheduled instant has been reached (R136). -/
def State.boundaryDue (i : Fin 4) (s : State) : Bool :=
  match s.gens[i].next with
  | some nb => decide (nb.instant ≤ s.synthTime)
  | none => false

end Sys2Proof.Machine
end

