-- ==== Sys2Proof/Machine/Formats.lean ====
section
/-! DEFINITION. Bytes sent on the line and at the port: fields, codes, the CRC and the beacon (R173 to R178). -/

namespace Sys2Proof.Machine

/-! ### Fields (R173: most significant byte first, signed fields in two's complement) -/

/-- The low `n` bytes of a number, most significant first. -/
def bytesOf (n v : Nat) : List Byte :=
  match n with
  | 0 => []
  | k + 1 => BitVec.ofNat 8 (v / 256 ^ k) :: bytesOf k v

/-- An unsigned field of `n` bytes; a value that does not fit has no encoding in the manual (log 13). -/
def field (n v : Nat) : List Byte :=
  if v < 256 ^ n then bytesOf n v else bytesOf n (Config.unfittingField n v)

/-- A signed field of `n` bytes; a value that does not fit has no encoding in the manual (log 13). -/
def signedField (n : Nat) (x : Int) : List Byte :=
  if -(256 ^ n / 2 : Int) ≤ x ∧ x < 256 ^ n / 2 then bytesOf n (x % 256 ^ n).toNat
  else bytesOf n (Config.unfittingField n x)

/-- An optional field: zeros when absent (R180). -/
def signedOption (n : Nat) (x : Option Int) : List Byte := signedField n (x.getD 0)

/-- A time as 6 bytes of seconds and 4 of nanoseconds (R173). -/
def timeField (ns : Nat) : List Byte := field 6 (ns / nsPerSec) ++ field 4 (ns % nsPerSec)

/-! ### Codes (R178) -/

/-- Station state code. -/
def StationState.code (st : StationState) : Nat :=
  match st with
  | .standby => 0
  | .starting => 1
  | .listen => 2
  | .founding => 3
  | .joining => 4
  | .agreed => 5
  | .isolated => 6
  | .withdrawing => 7
  | .stalled => 8

/-- Cause code. -/
def Cause.code (c : Cause) : Nat :=
  match c with
  | .joined => 1
  | .locked => 2
  | .noLock => 3
  | .expired => 4
  | .integrated => 5
  | .slotTaken => 6
  | .yielded => 7
  | .founded => 8
  | .timeout => 9
  | .collision => 10
  | .settled => 11
  | .quorum => 12
  | .disagree => 13
  | .merge => 14
  | .regained => 15
  | .withdraw => 16
  | .withdrawn => 17
  | .source => 18
  | .recovered => 19

/-- Fault reason code. -/
def FaultReason.code (f : FaultReason) : Nat :=
  match f with
  | .none => 0
  | .reset => 20
  | .cause c => c.code

/-- The state code a beacon carries. -/
def PeerState.code (p : PeerState) : Nat :=
  match p with
  | .founding => 3
  | .joining => 4
  | .agreed => 5
  | .isolated => 6
  | .withdrawing => 7

/-- The beacon state a code names (R176: 3 to 7). -/
def PeerState.ofCode (n : Nat) : Option PeerState :=
  match n with
  | 3 => some .founding
  | 4 => some .joining
  | 5 => some .agreed
  | 6 => some .isolated
  | 7 => some .withdrawing
  | _ => none

/-- Entry state code. -/
def EntryState.code (e : EntryState) : Nat :=
  match e with
  | .vacant => 0
  | .self => 1
  | .heard => 2
  | .counted => 3
  | .excluded => 4

/-- Observation code. -/
def Observation.code (o : Observation) : Nat :=
  match o with
  | .none => 0
  | .good => 1
  | .wild => 2
  | .absent => 3
  | .leaving => 4

/-- Generator state code. -/
def GenState.code (g : GenState) : Nat :=
  match g with
  | .off => 0
  | .armed => 1
  | .running => 2
  | .stopping => 3

/-- Source code. -/
def Source.code (x : Source) : Nat :=
  match x with
  | .xo => 1
  | .ref => 2

/-- Health code. -/
def Health.code (h : Health) : Nat :=
  match h with
  | .disabled => 0
  | .learning => 1
  | .healthy => 2
  | .unhealthy => 3

/-- Synthesizer state code. -/
def SynthState.code (x : SynthState) : Nat :=
  match x with
  | .off => 0
  | .locking => 1
  | .locked => 2
  | .relocking => 3

/-- Code of the age of a raw lag (R180): 2 for STALE. -/
def LagAge.code (a : LagAge) : Nat :=
  match a with
  | .zero => 0
  | .one => 1
  | .stale => 2

/-- Code of a label change origin. -/
def Origin.code (o : Origin) : Nat :=
  match o with
  | .originated => 1
  | .adopted _ => 2

/-! ### The check (R174) -/

/-- One bit of the CRC register's division by 04C11DB7h. -/
def crcShift (r : BitVec 32) : BitVec 32 := if r.msb then (r <<< 1) ^^^ 0x04C11DB7#32 else r <<< 1

/-- One byte fed in, most significant bit first. -/
def crcByte (r : BitVec 32) (b : Byte) : BitVec 32 :=
  crcShift <| crcShift <| crcShift <| crcShift <| crcShift <| crcShift <| crcShift <| crcShift <|
    r ^^^ (b.zeroExtend 32 <<< 24)

/-- The CRC-32 of R174: register preset to ones, no reflection, final value complemented. -/
def crc32 (bytes : List Byte) : BitVec 32 := ~~~(bytes.foldl crcByte 0xFFFFFFFF#32)

/-! ### The beacon (R175) -/

/-- An echo entry's 5 bytes. -/
def EchoEntry.bytes (e : EchoEntry) : List Byte := field 1 (e.slot.val + 64 * e.age.val) ++ signedField 4 e.lag

/-- A label notice's 10 bytes. -/
def LabelNotice.bytes (n : LabelNotice) : List Byte := signedField 4 n.offset ++ field 6 n.second

/-- Presence bits and echo count, byte 3. -/
def Beacon.presence (b : Beacon) : Nat :=
  (if b.anchorOffset.isSome then 1 else 0) + (if b.notice.isSome then 2 else 0) + 16 * b.echoes.length

/-- Every byte of a beacon before its check, in the shortest form its contents allow (R175, R176). -/
def Beacon.body (b : Beacon) : List Byte :=
  field 1 1 ++ field 1 b.state.code ++ field 1 b.slot.val ++ field 1 b.presence ++ field 4 b.tag ++ field 6 b.round
    ++ field 1 b.counted ++ signedField 4 b.labelOffset
    ++ (b.anchorOffset.map (signedField 4)).getD [] ++ (b.notice.map LabelNotice.bytes).getD []
    ++ b.echoes.flatMap EchoEntry.bytes

/-- A beacon's bytes with the check. -/
def Beacon.bytes (b : Beacon) : List Byte := b.body ++ bytesOf 4 (crc32 b.body).toNat

/-- A whole frame: preamble AAAAh, delimiter 9Bh, beacon (R174). -/
def Beacon.frame (b : Beacon) : List Byte := [0xAA#8, 0xAA#8, 0x9B#8] ++ b.bytes

end Sys2Proof.Machine
end

