-- ==== Sys2Proof/Machine/Link.lean ====
section
/-! DEFINITION. The Link Unit (chapter 1): echo selection, the beacon and its way onto the line, reception modes, and
the own slot. -/

namespace Sys2Proof.Machine

/-! ### Echoes (R13, R14) -/

/-- The age an echo entry carries; STALE is not carried (R14). -/
def LagAge.echoAge (a : LagAge) : Option (Fin 2) :=
  match a with
  | .zero => some 0
  | .one => some 1
  | .stale => none

/-- A raw lag that an echo entry can carry (R13). -/
def echoFits (lag : Int) : Bool := decide (-2147483648 ≤ lag) && decide (lag ≤ 2147483647)

/-- The echo entry of a Peer Table entry, where it is eligible (R13). -/
def PeerEntry.echo (slot : Fin 32) (p : PeerEntry) : Option EchoEntry :=
  match p.rawLag, p.lagAge.echoAge with
  | some lag, some age => if p.state.occupied && echoFits lag then some ⟨slot, lag, age⟩ else none
  | _, _ => none

/-- The slots in the order of a walk from the echo pointer (R13). -/
def walk (pointer : Fin 32) : List (Fin 32) := (List.finRange 32).map (pointer + ·)

/-- Echo selection: the first 8 eligible entries of the walk (R13). -/
def PeerTable.selectEchoes (t : PeerTable) (pointer : Fin 32) : List EchoEntry :=
  ((walk pointer).filterMap fun i => t.entries[i].echo i).take 8

/-- The echo pointer after a selection: the slot after the last entry taken (R13). -/
def pointerAfter (pointer : Fin 32) (es : List EchoEntry) : Fin 32 :=
  match es.getLast? with
  | some e => e.slot + 1
  | none => pointer

/-! ### The beacon (R6, R7) -/

/-- The beacon state of a transmitting station. -/
def StationState.beaconState (st : StationState) : Option PeerState :=
  match st with
  | .founding => some .founding
  | .joining => some .joining
  | .agreed => some .agreed
  | .isolated => some .isolated
  | .withdrawing => some .withdrawing
  | .standby | .starting | .listen | .stalled => none

/-- The anchor offset a beacon carries (R7). -/
def State.beaconAnchor (s : State) : Option Int :=
  match s.anchor.offset with
  | some x => if s.config.anchorEnabled && s.anchor.valid && echoFits x then some x else none
  | none => none

/-- The label notice a beacon carries: a pending change this station originates (R7). -/
def State.beaconNotice (s : State) : Option LabelNotice :=
  match s.anchor.change with
  | some ⟨offset, second, .originated⟩ => some ⟨offset, second⟩
  | _ => none

/-- The contents of a beacon of round `n` with state `st` (R6). -/
def State.beacon (st : PeerState) (n : Nat) (s : State) : Beacon where
  state := st
  slot := s.config.slot
  tag := s.config.tag
  round := n
  counted := s.peers.number .counted
  labelOffset := s.anchor.labelOffset
  anchorOffset := s.beaconAnchor
  notice := s.beaconNotice
  echoes := s.peers.selectEchoes s.link.echoPointer

/-- A beacon may be built now, and where: the round and the beacon state (R15). While an earlier frame of the station is
still on the line none is built: the build waits until the transmitter is released (the model's choice, log 50). -/
def State.buildDue (s : State) : Option (PeerState × Nat) :=
  match s.reading, s.station.state.beaconState with
  | some a, some st =>
    if s.link.buildOpen && !s.source.coasting && inBuildSpan s.config.slot a && s.link.built.isNone
        && s.link.transmitter.isNone && !s.link.departed.contains (roundOf a)
    then some (st, roundOf a) else none
  | _, _ => none

/-- The beacon of round `n` is built; the walk moves the echo pointer (R13, R15). -/
def State.build (st : PeerState) (n : Nat) (s : State) : State :=
  let b := s.beacon st n
  s.setLink { s.link with
    built := some ⟨b, n, false⟩, buildOpen := false, echoPointer := pointerAfter s.link.echoPointer b.echoes }

/-- Half ns a frame takes: 24 bits of preamble and delimiter and the beacon's bits, 20 ns each (chapter 1; log 36). -/
def frameHalfNs (frame : List Byte) : Nat := 320 * frame.length

/-- A built beacon whose frame is to begin now (R16). -/
def State.frameDue (s : State) : Option BuiltBeacon :=
  match s.reading, s.link.built with
  | some a, some b =>
    if !b.begun && s.link.transmitter.isNone && s.station.state.transmits && !s.source.coasting
        && decide (frameStartOf b.round b.beacon.slot ≤ a)
    then some b else none
  | _, _ => none

/-- The frame of a built beacon begins (R16). -/
def State.beginFrame (b : BuiltBeacon) (s : State) : State :=
  s.setLink { s.link with
    built := some { b with begun := true }
    transmitter := some ⟨b.beacon.frame, b.round, s.synthTime + frameHalfNs b.beacon.frame⟩ }

/-- The frame whose last bit has gone by now (R16). -/
def State.frameEnded (s : State) : Option Transmission :=
  match s.link.transmitter with
  | some x => if x.doneAt ≤ s.synthTime then some x else none
  | none => none

/-- The beacon whose departure is reported when the frame on the line ends: abandoned beacons are not (R17; log 20). -/
def Link.departing (l : Link) : Option BuiltBeacon :=
  match l.built with
  | some b => if b.begun then some b else none
  | none => none

/-- The transmitter is released as the last byte has been sent (R16); the window of a beacon that was neither abandoned
nor cut off is to be judged (R18; log 21). -/
def State.releaseFrame (x : Transmission) (s : State) : State :=
  s.setLink { s.link with
    transmitter := none
    departed := x.round :: s.link.departed
    built := if s.link.departing.isSome then none else s.link.built
    toJudge := if s.link.departing.isSome then some x.round else s.link.toJudge }

/-! ### Modes, and what ends a beacon (R4, R16, R17) -/

/-- The reception mode of an entered state; leaving WINDOWED ends the own window, and a built beacon is abandoned where
the station no longer transmits (R17), a frame begun going on to its end. When the mode becomes OFF, the frames being
received are discarded: no timing mark of theirs is remembered (R4). -/
def State.enterMode (m : ReceptionMode) (s : State) : State :=
  match m with
  | .windowed => s.setLink { s.link with mode := .windowed }
  | .off =>
    s.setLink { s.link with
      mode := .off, built := none, readBack := ReadBack.cleared, toJudge := none, judged := none, buildOpen := false, trail := [] }
  | .openMode =>
    s.setLink { s.link with
      mode := .openMode, built := none, readBack := ReadBack.cleared, toJudge := none, judged := none, buildOpen := false }

/-- A built beacon is abandoned and a frame begun is cut off at once (R17: coasting, STALLED, a reset). -/
def State.cutOff (s : State) : State :=
  s.setLink { s.link with built := none, transmitter := none, buildOpen := false }

/-- Entry into STALLED at the Link Unit: transmission and reception stop, as in R20 (R41). -/
def State.stallLink (s : State) : State :=
  let t := s.cutOff.enterMode .off
  t.setLink { t.link with listenRound := none, arrivals := Vector.replicate 32 false }

/-! ### The own slot (R18, R19) -/

/-- The reading lies in the window of slot `slot` in round `n`. -/
def inWindowOf (n : Nat) (slot : Fin 32) (reading : Nat) : Bool := roundOf reading == n && slotOf reading == slot

/-- The own window that the read-back record is of has closed: that of the beacon sent, or that of the reading (R18). A
backward step that moves the reading out of the window closes it as a forward one does (the model's reading, log 49). The
model's choice where a step moves the reading out of the window while the own frame is still being sent (R16): that close
judges nothing and clears the record, and the window is judged at the close given after the frame's end (log 54). -/
def State.windowClosed (s : State) : Bool :=
  match s.link.mode, s.reading with
  | .windowed, some a =>
    match s.link.toJudge with
    | some n => !inWindowOf n s.config.slot a
    | none => slotOf a != s.config.slot
  | _, _ => false

/-- The judgements of an own window; `undecided` is a second clean copy alone (log 18). -/
inductive WindowVerdict where
  | clean
  | collision
  | undecided
  deriving DecidableEq, Repr

/-- The judgement of a window in which a beacon was sent whole (R18). -/
def ReadBack.verdict (r : ReadBack) : WindowVerdict :=
  if r.damaged || r.other || !r.clean then .collision
  else if r.repeated then .undecided
  else .clean

/-- The collision count after a judgement (R19). -/
def WindowVerdict.count (v : WindowVerdict) (collisions : Nat) : Nat :=
  match v with
  | .clean => 0
  | .collision => min 3 (collisions + 1)
  | .undecided => collisions

/-- The judgement of the window that closes, where one is made (R18). -/
def Link.verdict (l : Link) : Option WindowVerdict := l.toJudge.map fun _ => l.readBack.verdict

/-- The own window closes: it is judged where its beacon was sent whole, and the record is cleared (R18, R19); a beacon
still being sent has not been (log 54). -/
def State.closeWindow (s : State) : State :=
  let l := s.link
  s.setLink { l with
    collisions := match l.verdict with
      | some v => v.count l.collisions
      | none => l.collisions
    judged := match l.toJudge with
      | some n => some ⟨n, l.collisions, l.readBack⟩
      | none => l.judged
    readBack := ReadBack.cleared, toJudge := none, buildOpen := false }

/-- What a frame of the own window adds to the read-back record: `none` is a damaged frame (R18). -/
def ReadBack.add (r : ReadBack) (tag : Nat) (b : Option Beacon) : ReadBack :=
  match b with
  | none => { r with damaged := true }
  | some b =>
    if b.tag ≠ tag then { r with other := true }
    else if r.clean then { r with repeated := true }
    else { r with clean := true }

/-- The judged window of round `n`, where it is the latest judged. -/
def Link.judgedIn (l : Link) (n : Nat) : Option JudgedWindow := l.judged.filter fun j => j.round == n

/-- The window judged anew, with a frame of it that ended after its close added (R18; log 19). -/
def JudgedWindow.add (j : JudgedWindow) (tag : Nat) (b : Option Beacon) : JudgedWindow := { j with record := j.record.add tag b }

/-- The late frame makes the window a collision, which it was not judged before. -/
def JudgedWindow.collidesWith (j : JudgedWindow) (tag : Nat) (b : Option Beacon) : Bool :=
  (j.record.verdict != .collision) && ((j.add tag b).record.verdict == .collision)

/-- The collision count as the judgement anew leaves it; a collision already reported stands. -/
def Link.countAnew (l : Link) (j : JudgedWindow) (tag : Nat) (b : Option Beacon) : Nat :=
  if j.record.verdict = .collision then l.collisions else (j.add tag b).record.verdict.count j.before

/-! ### Timing marks (R1, R4, R85; log 4) -/

/-- The agreed reading of a stretch at instant `x` of synthesizer time, in whole ns. -/
def Stretch.readingAt (r : Stretch) (x : Nat) : Option Nat :=
  r.clock.map fun c =>
    let base := r.base * (x - r.start) / r.length
    clampUnits (c + base + (r.slew.map fun w => w.share c base).getD 0) / unitsPerNs

/-- What the Link Unit took at the timing mark of a frame that completes now, `since` ns of synthesizer time after it. At
the instant of an event the mark comes after the event; a mark in no time remembered came while reception was OFF. -/
def State.markAt (since : Nat) (s : State) : Mark :=
  let x : Int := (s.synthTime : Int) - 2 * since
  if since = 0 then ⟨s.link.mode, s.source.coasting, s.reading, 0⟩
  else
    match s.link.trail.find? fun r => decide ((r.start : Int) ≤ x) with
    | some r => ⟨r.mode, r.coasting, r.readingAt x.toNat, since⟩
    | none => ⟨.off, s.source.coasting, none, since⟩

end Sys2Proof.Machine
end

