-- ==== Sys2Proof/Machine/Clock.lean ====
section
/-! DEFINITION. Setting, stepping and losing the agreed clock, and who is told of it (R3, R85, R87, R106, R107, R114). -/

namespace Sys2Proof.Machine

/-- The states in which round ends are signalled (R3). -/
def StationState.closesRounds (st : StationState) : Bool :=
  match st with
  | .listen | .founding | .joining | .agreed | .isolated | .withdrawing => true
  | .standby | .starting | .stalled => false

/-- A round end for the round before `n` has not yet been signalled (R3). -/
def Link.startsLater (l : Link) (n : Nat) : Bool :=
  match l.lastRoundEnd with
  | none => true
  | some last => decide (last + 1 < n)

/-- The steps a frame may still have to be restated for, the latest first (log 5). -/
def recalled (now : Nat) (steps : List (Nat × Int)) : List (Nat × Int) :=
  steps.filter fun x => decide (now < x.1 + lineMemoryHalfNs)

/-- The built beacon after a step from reading `a` to `a'`: dropped before its frame has begun by a backward step, or
by a forward step to its frame start or past it (R16). -/
def Link.builtAfterStep (l : Link) (a a' : Nat) : Option BuiltBeacon :=
  match l.built with
  | some b =>
    if !b.begun && (decide (a' < a) || decide (frameStartOf b.round b.beacon.slot ≤ a')) then none else some b
  | none => none

/-- The read-back record after a step from reading `a` to `a'`: a step into another round ends the own window of the round
it leaves (R2), and the record of a window that is not to be judged ends with it (R18; log 54). -/
def Link.readBackAfterStep (l : Link) (a a' : Nat) : ReadBack :=
  if l.toJudge.isNone && decide (roundOf a ≠ roundOf a') then ReadBack.cleared else l.readBack

/-- A step from reading `a` to `a'` reaches the Link Unit (R2, R3, R15, R16, R18): the round followed, the round end a
forward step owes, the built beacon, the read-back record, and the greatest reading shown. -/
def Link.onStep (l : Link) (closes : Bool) (now a a' : Nat) (amount : Int) : Link :=
  let forward := decide (roundOf a < roundOf a')
  { l with
    built := l.builtAfterStep a a'
    readBack := l.readBackAfterStep a a'
    buildOpen := false
    furthest := some (max (l.shows a) a')
    followed := if forward then some (roundOf a') else l.followed.map (min (roundOf a'))
    owedRoundEnd := if forward && closes && l.startsLater (roundOf a') then some (roundOf a) else l.owedRoundEnd
    recentSteps := (now, amount) :: recalled now l.recentSteps }

/-- The anchor offset is lowered by the amount of a step (R107), whole where the clock is held at an end of its range (R85;
the model's reading, log 11). -/
def Anchor.onStep (a : Anchor) (amount : Int) : Anchor := { a with offset := a.offset.map (· - amount) }

/-- The agreed clock is stepped by an amount in ns (R87); a step of 0 discards the pending slew and is reported to no
block. -/
def State.stepClock (amount : Int) (s : State) : State :=
  match s.discipline.clock with
  | none => s
  | some c =>
    if amount = 0 then s.setDiscipline { s.discipline with slew := none }
    else
      let c' := clampUnits (c + amount * unitsPerNs)
      let t := { s with
        discipline := { s.discipline with clock := some c', slew := none }
        link := s.link.onStep s.station.state.closesRounds s.synthTime (c / unitsPerNs) (c' / unitsPerNs) amount
        peers := s.peers.onStep
        anchor := s.anchor.onStep amount }
      ((t.stepGens (c' / unitsPerNs)).applyDue).openOccasion

/-- A step that raises STEPPED (R87); a step of 0 raises none. -/
def State.stepNoticed (origin : StepOrigin) (amount : Int) (s : State) : State :=
  if amount = 0 then s.stepClock 0 else (s.stepClock amount).raise (.stepped origin amount)

/-- An invalid clock is set, in units of 10^-9 ns, and becomes valid; this is no step (R85, R3). Its reading is the first
it shows (R15; log 41). -/
def State.setClock (units : Nat) (s : State) : State :=
  let c := clampUnits units
  ({ s with
    discipline := { s.discipline with clock := some c }
    link := { s.link with
      followed := some (roundOf (c / unitsPerNs)), listenRound := none, furthest := some (c / unitsPerNs) } }).openOccasion

/-- The agreed clock becomes invalid (R85): the last round end becomes absent (R3), the pending slew is discarded
(R102; log 9), the pending label change is discarded (R114) and the anchor is cleared (R106). -/
def State.invalidateClock (s : State) : State :=
  ({ s with
    discipline := { s.discipline with clock := none, slew := none }
    link := { s.link with lastRoundEnd := none, followed := none, owedRoundEnd := none, recentSteps := [], furthest := none }
    anchor := { s.anchor with change := none, silence := 0 } }).dropAnchor .clock

/-- A valid clock is lost in STANDBY: it becomes invalid, and the generators end their runs (R123 to R125, R144). -/
def State.loseClock (s : State) : State := if s.clockValid then s.invalidateClock.endRuns else s

end Sys2Proof.Machine
end

