-- ==== Sys2Proof/Machine/Sources.lean ====
section
/-! DEFINITION. The Source Unit (chapter 7): selection, failover, coasting, locks, and supervision. -/

namespace Sys2Proof.Machine

/-- The coasting flag is set (R122): the coast mark with it (R98), and the beacon is abandoned or cut off (R17). -/
def State.coastOn (s : State) : State :=
  ((s.setSource { s.source with coasting := true }).setDiscipline { s.discipline with coastMark := true }).cutOff

/-- The synthesizer begins to lock to the selected source in state `synth`, its lock count at 0 (R117). -/
def SourceUnit.lockOn (u : SourceUnit) (synth : SynthState) (timer : Option Nat) : SourceUnit :=
  { u with synth := synth, lockSource := some u.selected, lockCount := 0, unitTimer := timer }

/-- The synthesizer follows a change of the selected source (R121). A lock timed in STANDBY is timed again from its restart
(R123; log 48). -/
def State.follow (s : State) : State :=
  if s.source.lockSource = some s.source.selected then s
  else
    match s.source.synth with
    | .off => s
    | .locking => s.setSource (s.source.lockOn .locking (s.source.unitTimer.map fun _ => 0))
    | .locked => (s.setSource (s.source.lockOn .relocking (some 0))).coastOn
    | .relocking => s.setSource (s.source.lockOn .relocking (some 0))

/-- A source becomes the selected source (R121). -/
def State.select (x : Source) (s : State) : State := (s.setSource { s.source with selected := x }).follow

/-- The source the failover rule selects: the other, when it is HEALTHY and the selected source UNHEALTHY (R120). -/
def SourceUnit.failoverTo (u : SourceUnit) : Option Source :=
  let other := u.get u.selected.other
  if (u.get u.selected).health = .unhealthy ∧ other.enabled = true ∧ other.health = .healthy then some u.selected.other
  else none

/-- The failover rule (R120). -/
def State.failover (s : State) : State :=
  match s.source.failoverTo with
  | some x => s.select x
  | none => s

/-- The condition of a source loss: the selected source is UNHEALTHY and the rule finds no other (R120). -/
def SourceUnit.lost (u : SourceUnit) : Bool :=
  decide ((u.get u.selected).health = .unhealthy) && u.failoverTo.isNone

/-- The synthesizer stops: OFF, no lock source, coasting cleared, the unit lock timer stopped (R123, R125, R126). The lock
count keeps its last value while no lock is in progress (the model's choice, log 51). -/
def SourceUnit.stop (u : SourceUnit) : SourceUnit :=
  { u with synth := .off, lockSource := none, coasting := false, unitTimer := none }

/-- The synthesizer stops. -/
def State.stopSynth (s : State) : State := s.setSource s.source.stop

/-- What R125 decides in STANDBY: a lock begins, the synthesizer runs on, or it stops. -/
def State.standbyRule (s : State) : State :=
  if s.config.earlyActivation || s.clockValid then
    if s.source.synth = .off ∧ (s.source.get s.source.selected).health ≠ .unhealthy then
      s.setSource (s.source.lockOn .locking (some 0))
    else s
  else s.stopSynth

/-- A source loss in STANDBY (R125). -/
def State.standbyLoss (s : State) : State := s.stopSynth.loseClock

/-- A lock abandoned: where it is a relock, a valid clock is lost with it (R85, R124; in LISTEN log 53). -/
def State.abandonLock (s : State) : State :=
  if s.source.synth = .relocking then s.stopSynth.loseClock else s.stopSynth

/-- The start-up lock on entry into STARTING (R124). -/
def State.startUpLock (s : State) : State :=
  match s.source.synth with
  | .off => s.setSource (s.source.lockOn .locking none)
  | .locking => s.setSource { s.source with unitTimer := none }
  | .locked | .relocking => s

/-- The synthesizer enters LOCKED (R117): coasting ends, the unit lock timer stops, the lock count stays (log 51). -/
def State.completeLock (s : State) : State :=
  s.setSource { s.source with synth := .locked, coasting := false, unitTimer := none }

/-- A lock or relock is in progress. -/
def SourceUnit.locking (u : SourceUnit) : Bool :=
  match u.synth with
  | .locking | .relocking => true
  | .off | .locked => false

/-! ### Enables (R128, R130) -/

/-- A source takes its enable from a record: LEARNING when it becomes enabled, DISABLED when it becomes disabled, as it
stands otherwise; its first whole window is the next one (R118, R128). -/
def SourceRecord.setEnable (r : SourceRecord) (on : Bool) : SourceRecord :=
  if r.enabled = on then r
  else if on then ⟨true, .learning, 0, 0, 0, false⟩
  else ⟨false, .disabled, 0, 0, 0, false⟩

/-- Enables and preferred source of a record (R128 stages 1 and 2, R130). -/
def SourceUnit.takeEnables (u : SourceUnit) (r : ConfigRecord) : SourceUnit :=
  { u with xo := u.xo.setEnable r.xoEnable, ref := u.ref.setEnable r.refEnable, selected := r.preferred }

/-! ### Supervision (R118, R119) -/

/-- The count of a window is good for the source (R118). -/
def Source.goodCount (x : Source) (count : Nat) : Bool :=
  match x with
  | .xo => decide (49500 ≤ count) && decide (count ≤ 50500)
  | .ref => decide (19800 ≤ count) && decide (count ≤ 20200)

/-- The runs after a judgement (R119). -/
def SourceRecord.countRuns (r : SourceRecord) (good : Bool) : SourceRecord :=
  if good then { r with good := min 16 (r.good + 1), bad := 0 } else { r with good := 0, bad := min 2 (r.bad + 1) }

/-- The health the runs require (R119). -/
def SourceRecord.healthAfter (r : SourceRecord) : Health :=
  match r.health with
  | .learning => if r.bad = 2 then .unhealthy else if r.good = 16 then .healthy else .learning
  | .healthy => if r.bad = 2 then .unhealthy else .healthy
  | .unhealthy => if r.good = 16 then .healthy else .unhealthy
  | .disabled => .disabled

/-- A source at a window end: judged if it was enabled for the whole window; the next window begins (R118, R119). -/
def SourceRecord.windowEnd (x : Source) (r : SourceRecord) : SourceRecord :=
  let q := if r.enabled && r.whole then r.countRuns (x.goodCount r.count) else r
  { q with health := q.healthAfter, count := 0, whole := r.enabled }

/-- The Source Unit at a window end, before the failover rule (R119). -/
def SourceUnit.windowEnd (u : SourceUnit) : SourceUnit :=
  { u with xo := u.xo.windowEnd .xo, ref := u.ref.windowEnd .ref, windowTimer := u.windowTimer - windowRc }

/-- The action of SOURCE_FAILED for source `x` in the unit as it was judged (R119). -/
def SourceUnit.failAction (u : SourceUnit) (x : Source) : FailAction :=
  if x ≠ u.selected then .unselected else if u.failoverTo.isSome then .switched else .lost

/-- The notice of a source's change of health at a window end from unit `u` to unit `v` (R119; log 27). -/
def healthNotices (u v : SourceUnit) (x : Source) : List Notice :=
  if (u.get x).health ≠ .unhealthy ∧ (v.get x).health = .unhealthy then [.sourceFailed x .windows (v.failAction x)]
  else if (u.get x).health = .unhealthy ∧ (v.get x).health = .healthy then
    [.sourceRestored x (decide (x = v.selected))]
  else []

/-- The notices of a window end: first of the source not selected, then of the one selected (R119). -/
def SourceUnit.windowNotices (u : SourceUnit) : List Notice :=
  healthNotices u u.windowEnd u.selected.other ++ healthNotices u u.windowEnd u.selected

/-- A source whose lock timed out (R123 stage 1). -/
def SourceRecord.failLock (r : SourceRecord) : SourceRecord := { r with health := .unhealthy, bad := 2, good := 0 }

end Sys2Proof.Machine
end

