-- ==== Sys2Proof/Machine/Stations.lean ====
section
/-! DEFINITION. The Station Controller's transitions: what each entry into a state does at every block (R21, R22, R24,
R25, R27, R41, R42). -/

namespace Sys2Proof.Machine

/-- The fault reason after an entry (R21). -/
def FaultReason.after (st : StationState) (cause : Cause) (held : FaultReason) : FaultReason :=
  match st with
  | .standby | .stalled => .cause cause
  | .starting | .listen | .founding | .joining | .agreed | .isolated | .withdrawing => held

/-- A transition as every entry makes it: STATE_CHANGED (log 8), the state and the fault reason (R21), the timers of
STARTING and LISTEN stopped (R24, R25), the collision count (R19), and the reception mode (R4). -/
def State.move (st : StationState) (cause : Cause) (s : State) : State :=
  let t := s.raise (.stateChanged st cause)
  let u := t.setStation { t.station with
    state := st, faultReason := t.station.faultReason.after st cause, listenTimer := none, lockTime := none }
  let v := u.setLink { u.link with
    listenRound := none
    collisions := if !s.station.state.transmits && st.transmits then 0 else u.link.collisions }
  v.enterMode st.mode

/-- The Agreement Unit's counts are set to 0 (R82). -/
def State.clearCounts (s : State) : State :=
  s.setAgreement { s.agreement with shortRounds := 0, disagreements := 0 }

/-- An entry into STANDBY abandons the lock: every one from STARTING (R24, R124), and a WITHDRAW in LISTEN or STALLED that
finds a lock in progress, a relock included (R38; log 53). -/
def State.abandonsLock (cause : Cause) (s : State) : Bool :=
  match s.station.state with
  | .starting => true
  | .listen | .stalled => (cause == .withdrawn) && s.source.locking
  | .standby | .founding | .joining | .agreed | .isolated | .withdrawing => false

/-- Entry into STANDBY other than by a reset (R22, R24, R38, R125, R142). -/
def State.enterStandby (cause : Cause) (s : State) : State :=
  let t := (s.move .standby cause).withdrawGens
  let u := if s.abandonsLock cause then t.abandonLock else t
  u.standbyRule

/-- What entry into STALLED sets in the Station Controller (R41). -/
def Station.stall (t : Station) : Station :=
  { t with foundingTimer := 0, settleCount := 0, silenceCount := 0, withdrawCount := 0 }

/-- What entry into STALLED sets in the Discipline Unit beside the clock and the slew (R102). -/
def Discipline.stall (d : Discipline) : Discipline :=
  { d with restart := 0, coastMark := false, joiningStepTaken := false }

/-- Entry into STALLED with cause SOURCE (R41, R62, R82, R102, R126, R144, R157). -/
def State.enterStalled (s : State) : State :=
  let t := (s.move .stalled .source).stallLink.invalidateClock
  let u := ({ t with
    peers := t.peers.clear
    agreement := Agreement.reset
    discipline := t.discipline.stall
    station := t.station.stall
    timecode := { t.timecode with output := none } }).cutGens
  u.stopSynth

/-- Entry into STARTING: the lock time starts (R22), the start-up lock begins (R124), and a source loss that holds is
reported (R120). -/
def State.enterStarting (cause : Cause) (s : State) : State :=
  let t := s.move .starting cause
  let u := (t.setStation { t.station with lockTime := some 0 }).startUpLock
  if u.source.lost then u.enterStalled else u

/-- How long the listen timer runs without extra rounds (R25). -/
def State.listenLength (s : State) : Nat := 4 + s.config.slot.val

/-- Entry into LISTEN (R22, R25). From a state in which round ends are signalled, the round followed goes on, and a round
end that is due then stays due (R3). -/
def State.enterListen (cause : Cause) (s : State) : State :=
  let t := s.move .listen cause
  let u := t.setStation { t.station with
    listenTimer := some (t.listenLength + t.station.extraListen), extraListen := 0, listenNotice := false }
  u.setLink { u.link with 
    listenRound := if u.clockValid then none else some 0
    followed := if s.station.state.closesRounds then u.link.followed else u.round }

/-- Entry into FOUNDING, its clock as it stands (R22). -/
def State.enterFounding (cause : Cause) (s : State) : State :=
  let t := (s.move .founding cause).clearCounts
  (t.setStation { t.station with foundingTimer := 0 }).openOccasion

/-- Entry into JOINING (R22). -/
def State.enterJoining (cause : Cause) (s : State) : State :=
  let t := (s.move .joining cause).clearCounts
  ({ t with
    station := { t.station with settleCount := 0, silenceCount := 0 }
    discipline := { t.discipline with joiningStepTaken := false } }).openOccasion

/-- Entry into AGREED: counts, holdover record valid, generators armed (R22, R99, R135). -/
def State.enterAgreed (cause : Cause) (s : State) : State :=
  let t := (s.move .agreed cause).clearCounts
  (t.setDiscipline { t.discipline with holdoverValue := t.discipline.rate, holdoverValid := true }).armAll.openOccasion

/-- Entry into ISOLATED: holdover (R22). -/
def State.enterIsolated (cause : Cause) (s : State) : State := (s.move .isolated cause).openOccasion

/-- Entry into WITHDRAWING: holdover, withdraw count 0 (R22). -/
def State.enterWithdrawing (cause : Cause) (s : State) : State :=
  let t := s.move .withdrawing cause
  (t.setStation { t.station with withdrawCount := 0 }).openOccasion

/-! ### Founding (R26, R27) -/

/-- The time of a seed with its elapsed time, in units of the clock (R27). -/
def Seed.units (w : Seed) : Nat := (w.seconds * nsPerSec + w.ns) * unitsPerNs + w.elapsedRc * 62500000000

/-- The agreed clock on entry into FOUNDING: stepped by the anchor offset, kept, or set from the seed (R27). -/
def State.foundClock (s : State) : State :=
  match s.anchor.valid, s.anchor.offset, s.clockValid, s.station.seed with
  | true, some x, _, _ => s.stepNoticed .founding x
  | _, _, false, some w => s.setClock w.units
  | _, _, _, _ => s

/-- The station may found at an expiry of the listen timer (R26). -/
def State.mayFound (s : State) : Bool := s.config.founding && (s.seeded || s.anchor.valid)

/-- An expiry that leaves the station in LISTEN: one notice a stay, and the timer restarts (R25, R26). -/
def State.keepListening (s : State) : State :=
  let t := if s.station.listenNotice then s else s.raise (if s.config.founding then .noSeed else .alone)
  t.setStation { t.station with listenNotice := true, listenTimer := some t.listenLength }

/-- An expiry of the listen timer (R26). -/
def State.listenExpiry (s : State) : State :=
  if s.mayFound then (s.enterFounding .expired).foundClock else s.keepListening

/-! ### Sources and the station state (R41, R42, R120, R125) -/

/-- A source loss is acted on where the condition holds: STALLED from any state but STANDBY, where the synthesizer
stops (R120, R125; log 28). -/
def State.actOnLoss (s : State) : State :=
  if s.source.lost then
    match s.station.state with
    | .standby => s.standbyLoss
    | .stalled => s
    | .starting | .listen | .founding | .joining | .agreed | .isolated | .withdrawing => s.enterStalled
  else s

/-- A recovery is reported in STALLED once the selected source is HEALTHY (R42, R120). -/
def State.actOnRecovery (s : State) : State :=
  if s.station.state = .stalled ∧ (s.source.get s.source.selected).health = .healthy then s.enterStarting .recovered
  else s

/-- R125 where the station is in STANDBY. -/
def State.standbyRuleHere (s : State) : State := if s.station.state = .standby then s.standbyRule else s

end Sys2Proof.Machine
end

