-- ==== Sys2Proof/Machine/ClockEvents.lean ====
section
/-! DEFINITION. Events of the agreed clock and of the anchor input (R93, R103, R106, R114). -/

namespace Sys2Proof.Machine

/-- LABEL_APPLIED (R114). -/
def execLabelApplied (dt : Elapsed) (s : State) : Host.Outcome State Fault Refusal := .next (s.elapse dt).applyDue

/-- A rising edge of the anchor input (R103): ignored, captured unlabelled, or captured and labelled. -/
def State.anchorPulse (s : State) : State :=
  if s.configured && s.config.anchorEnabled then
    match s.reading, s.anchor.label with
    | some t, some second => s.capture second t
    | some t, none => s.raise (.anchorUnlabelled t)
    | none, _ => s
  else s

/-- ANCHOR_PULSE. -/
def execAnchorPulse (dt : Elapsed) (s : State) : Host.Outcome State Fault Refusal := .next (s.elapse dt).anchorPulse

/-- The silence time has reached 3 s of a valid clock (R106). -/
def State.silenceReached (s : State) : Bool := s.clockValid && decide (silenceNs * unitsPerNs ≤ s.anchor.silence)

/-- The anchor is cleared where the silence time has been reached (R106). -/
def State.silenceIf (s : State) : State := if s.silenceReached then s.dropAnchor .silence else s

/-- ANCHOR_SILENCE. -/
def execAnchorSilence (dt : Elapsed) (s : State) : Host.Outcome State Fault Refusal := .next (s.elapse dt).silenceIf

/-- The reading has reached the round start at which the pending slew ends (R93). -/
def State.slewReached (s : State) : Bool :=
  match s.discipline.clock, s.discipline.slew with
  | some c, some w => decide (w.endAt ≤ c)
  | _, _ => false

/-- The pending slew is none once its round start is reached (R93). -/
def State.slewIf (s : State) : State :=
  if s.slewReached then s.setDiscipline { s.discipline with slew := none } else s

/-- SLEW_SPENT. -/
def execSlewSpent (dt : Elapsed) (s : State) : Host.Outcome State Fault Refusal := .next (s.elapse dt).slewIf

end Sys2Proof.Machine
end

