-- ==== Sys2Proof/Machine/Operands.lean ====
section
/-! DEFINITION. What bytes received on the line and at the port say: the beacon of a frame (R8, R176) and the
parameters of the host commands (R162, R177, R179). -/

namespace Sys2Proof.Machine

/-- The number a field of bytes holds, most significant first (R173). -/
def natOf (bs : List Byte) : Nat := bs.foldl (fun a b => a * 256 + b.toNat) 0

/-- The signed number a field of bytes holds (R173). -/
def intOf (bs : List Byte) : Int :=
  if natOf bs < 256 ^ bs.length / 2 then natOf bs else (natOf bs : Int) - 256 ^ bs.length

/-- `n` bytes from offset `o`. -/
def part (bs : List Byte) (o n : Nat) : List Byte := (bs.drop o).take n

/-- The unsigned field of `n` bytes at offset `o`. -/
def natAt (bs : List Byte) (o n : Nat) : Nat := natOf (part bs o n)

/-- The signed field of `n` bytes at offset `o`. -/
def intAt (bs : List Byte) (o n : Nat) : Int := intOf (part bs o n)

/-! ### Frames (R8, R175, R176) -/

/-- Byte 3: an anchor offset is present. -/
def hasAnchor (bs : List Byte) : Bool := natAt bs 3 1 % 2 == 1

/-- Byte 3: a label notice is present. -/
def hasNotice (bs : List Byte) : Bool := natAt bs 3 1 / 2 % 2 == 1

/-- Byte 3: the echo count. -/
def echoCount (bs : List Byte) : Nat := natAt bs 3 1 / 16

/-- Offset of the label notice. -/
def noticeAt (bs : List Byte) : Nat := 19 + (if hasAnchor bs then 4 else 0)

/-- Offset of the first echo entry. -/
def echoesAt (bs : List Byte) : Nat := noticeAt bs + (if hasNotice bs then 10 else 0)

/-- The length a beacon's own presence indications and echo count imply (R176). -/
def impliedLength (bs : List Byte) : Nat := echoesAt bs + 5 * echoCount bs + 4

/-- A label offset lies in its range (R8). -/
def labelOffsetOk (x : Int) : Bool := decide (-86400 ≤ x) && decide (x ≤ 86400)

/-- An echo entry, unless it names a slot above 31 or an age other than 0 or 1 (R8). -/
def parseEcho (bs : List Byte) : Option EchoEntry :=
  let b := natAt bs 0 1
  if h : b % 64 < 32 ∧ b / 64 < 2 then some ⟨⟨b % 64, h.1⟩, intAt bs 1 4, ⟨b / 64, h.2⟩⟩ else none

/-- `n` echo entries one after the other. -/
def parseEchoes (n : Nat) (bs : List Byte) : Option (List EchoEntry) :=
  match n with
  | 0 => some []
  | k + 1 =>
    match parseEcho bs, parseEchoes k (bs.drop 5) with
    | some e, some es => some (e :: es)
    | _, _ => none

/-- The checks of R8 on length and check, which need no field. -/
def frameWhole (bs : List Byte) : Bool :=
  decide (23 ≤ bs.length) && decide (bs.length ≤ 77) && (bs.length == impliedLength bs)
    && (natAt bs (bs.length - 4) 4 == (crc32 (bs.take (bs.length - 4))).toNat)

/-- The checks of R8 on the fixed fields. -/
def fieldsOk (bs : List Byte) : Bool :=
  (natAt bs 0 1 == 1) && decide (natAt bs 2 1 < 32) && decide (echoCount bs ≤ 8) && (natAt bs 4 4 != 0)
    && decide (natAt bs 14 1 ≤ 31) && labelOffsetOk (intAt bs 15 4)
    && (!hasNotice bs || labelOffsetOk (intAt bs (noticeAt bs) 4))

/-- The checks of R8 on the echo list: no own slot, no slot twice. -/
def echoesOk (slot : Fin 32) (es : List EchoEntry) : Bool :=
  es.all (fun e => e.slot != slot) && decide (es.map (·.slot)).Nodup

/-- The beacon a frame's bytes hold; `none` is a damaged frame (R8). -/
def parseBeacon (bs : List Byte) : Option Beacon :=
  match PeerState.ofCode (natAt bs 1 1), parseEchoes (echoCount bs) (bs.drop (echoesAt bs)) with
  | some st, some es =>
    let slot := Fin.ofNat 32 (natAt bs 2 1)
    if frameWhole bs && fieldsOk bs && echoesOk slot es then
      some {
        state := st
        slot := slot
        tag := natAt bs 4 4
        round := natAt bs 8 6
        counted := natAt bs 14 1
        labelOffset := intAt bs 15 4
        anchorOffset := if hasAnchor bs then some (intAt bs 19 4) else none
        notice := if hasNotice bs then some ⟨intAt bs (noticeAt bs) 4, natAt bs (noticeAt bs + 4) 6⟩ else none
        echoes := es }
    else none
  | _, _ => none

/-! ### The configuration record (R162, R179) -/

/-- A yes/no byte (R178). -/
def parseBool (n : Nat) : Option Bool :=
  match n with
  | 0 => some false
  | 1 => some true
  | _ => none

/-- A source code (R178). -/
def parseSource (n : Nat) : Option Source :=
  match n with
  | 1 => some .xo
  | 2 => some .ref
  | _ => none

/-- A generator kind code (R178). -/
def parseKind (n : Nat) : Option GenKind :=
  match n with
  | 1 => some .video
  | 2 => some .audio
  | _ => none

/-- An on-withdraw code (R178). -/
def parseOnWithdraw (n : Nat) : Option OnWithdraw :=
  match n with
  | 1 => some .hold
  | 2 => some .stop
  | _ => none

/-- A number in a range. -/
def inRange (lo hi x : Nat) : Bool := decide (lo ≤ x) && decide (x ≤ hi)

/-- The kind field passes: a kind, and that of the rate code where the rate code is one (R162; log 30). -/
def kindOk (kind rate : Nat) : Bool :=
  match parseKind kind, RateCode.ofCode rate with
  | some k, some r => k == r.kind
  | some _, none => true
  | none, _ => false

/-- The paired rate field passes: a VIDEO rate code for AUDIO, 0 for VIDEO (R162, R179). -/
def pairedOk (kind paired : Nat) : Bool :=
  match parseKind kind with
  | some .video => paired == 0
  | some .audio => inRange 1 10 paired
  | none => false

/-- The delay field passes: 0 to floor(P) - 1 (R131, R162). -/
def delayOk (rate delay : Nat) : Bool :=
  match RateCode.ofCode rate with
  | some r => decide (delay < r.periodNs)
  | none => false

/-- The checks on the six fields of generator `g`, with their indexes (R162). -/
def genChecks (bs : List Byte) (g : Nat) : List (Nat × Bool) :=
  let o := 41 + 9 * g
  let at1 := fun k => natAt bs (o + k) 1
  [ (22 + 6 * g, (parseBool (at1 0)).isSome),
    (23 + 6 * g, kindOk (at1 1) (at1 2)),
    (24 + 6 * g, (RateCode.ofCode (at1 2)).isSome),
    (25 + 6 * g, pairedOk (at1 1) (at1 3)),
    (26 + 6 * g, delayOk (at1 2) (natAt bs (o + 4) 4)),
    (27 + 6 * g, (parseOnWithdraw (at1 8)).isSome) ]

/-- The preferred source field passes: XO or REF, and enabled (R162). -/
def preferredOk (bs : List Byte) : Bool :=
  match parseSource (natAt bs 39 1) with
  | some .xo => natAt bs 37 1 == 1
  | some .ref => natAt bs 38 1 == 1
  | none => false

/-- The binding field passes: none, or a generator of kind VIDEO (R149, R162). -/
def bindingOk (bs : List Byte) : Bool :=
  let b := natAt bs 77 1
  b == 0 || (inRange 1 4 b && natAt bs (41 + 9 * (b - 1) + 1) 1 == 1)

/-- The field checks of a configuration record, with their indexes, in the order of R162. -/
def configChecks (bs : List Byte) : List (Nat × Bool) :=
  [ (1, inRange 1 4294967295 (natAt bs 0 4)),
    (2, inRange 0 31 (natAt bs 4 1)),
    (3, (parseBool (natAt bs 5 1)).isSome),
    (4, inRange 1 31 (natAt bs 6 1)),
    (5, inRange 1000 50000 (natAt bs 7 2)),
    (6, inRange 2 16 (natAt bs 9 1)),
    (7, inRange 0 1000 (natAt bs 10 2)),
    (8, inRange 1000 1000000 (natAt bs 12 4)),
    (9, inRange (natAt bs 12 4) 1000000000 (natAt bs 16 4)),
    (10, inRange 0 31 (natAt bs 20 1)),
    (11, inRange 0 255 (natAt bs 21 1)),
    (12, inRange 1 50 (natAt bs 22 1)),
    (13, (parseBool (natAt bs 23 1)).isSome),
    (14, inRange 1 64 (natAt bs 24 1)),
    (15, inRange 1000 1000000000 (natAt bs 25 4)),
    (16, inRange 1 100000 (natAt bs 29 4)),
    (17, labelOffsetOk (intAt bs 33 4)),
    (18, (parseBool (natAt bs 37 1)).isSome),
    (19, (parseBool (natAt bs 38 1)).isSome),
    (20, preferredOk bs),
    (21, (parseBool (natAt bs 40 1)).isSome) ]
  ++ genChecks bs 0 ++ genChecks bs 1 ++ genChecks bs 2 ++ genChecks bs 3
  ++ [ (46, bindingOk bs),
       (47, decide (natAt bs 78 4 < 2 ^ 27)),
       (48, natAt bs 82 7 % 4 == 0) ]

/-- The index of the first field that fails (R162). -/
def firstFailure (checks : List (Nat × Bool)) : Option Nat := (checks.find? (fun c => !c.2)).map (·.1)

/-- The settings of generator `g` in a record whose checks pass. -/
def parseGen (bs : List Byte) (g : Nat) : GenSettings where
  enable := natAt bs (41 + 9 * g) 1 == 1
  kind := (parseKind (natAt bs (41 + 9 * g + 1) 1)).getD .video
  rate := (RateCode.ofCode (natAt bs (41 + 9 * g + 2) 1)).getD .v25
  paired := RateCode.ofCode (natAt bs (41 + 9 * g + 3) 1)
  delay := natAt bs (41 + 9 * g + 4) 4
  onWithdraw := (parseOnWithdraw (natAt bs (41 + 9 * g + 8) 1)).getD .stop

/-- Bit `i` of a number. -/
def bitAt (n i : Nat) : Bool := n / 2 ^ i % 2 == 1

/-- The record 89 bytes hold, for a record whose checks pass (R179). -/
def parseConfig (bs : List Byte) : ConfigRecord where
  tag := natAt bs 0 4
  slot := Fin.ofNat 32 (natAt bs 4 1)
  founding := natAt bs 5 1 == 1
  quorum := natAt bs 6 1
  window := natAt bs 7 2
  admission := natAt bs 9 1
  deadBand := natAt bs 10 2
  stepThreshold := natAt bs 12 4
  maxStep := natAt bs 16 4
  smoothing := natAt bs 20 1
  restartRounds := natAt bs 21 1
  slewLimit := natAt bs 22 1
  anchorEnabled := natAt bs 23 1 == 1
  steerLimit := natAt bs 24 1
  captureLimit := natAt bs 25 4
  agreementLimit := natAt bs 29 4
  labelOffset := intAt bs 33 4
  xoEnable := natAt bs 37 1 == 1
  refEnable := natAt bs 38 1 == 1
  preferred := (parseSource (natAt bs 39 1)).getD .xo
  earlyActivation := natAt bs 40 1 == 1
  gens := tabulate 4 fun i => parseGen bs i.val
  binding := if h : natAt bs 77 1 - 1 < 4 then (if natAt bs 77 1 = 0 then none else some ⟨natAt bs 77 1 - 1, h⟩) else none
  noticeEnables := tabulate 27 fun i => bitAt (natAt bs 78 4) i.val
  noticePriorities := tabulate 27 fun i => Fin.ofNat 4 (natAt bs 82 7 / 4 ^ (27 - i.val))

end Sys2Proof.Machine
end

