-- ==== Sys2Proof/Machine/Flags.lean ====
section
/-! DEFINITION. What the control port sends: statuses and responses (R160, R177), the snapshots of the station, of a
peer and of a generator (R180), and the notice record (R181), each with its presence flags. -/

namespace Sys2Proof.Machine

/-! ### Responses -/

/-- The statuses of R177; REFUSED_VALUE carries the field index. -/
inductive Status where
  | ok
  | refusedState
  | refusedValue (index : Nat)
  | refusedSource
  | refusedPending
  | unknownCommand
  deriving DecidableEq, Repr

/-- Status code (R177). -/
def Status.code (st : Status) : Nat :=
  match st with
  | .ok => 0
  | .refusedState => 1
  | .refusedValue _ => 2
  | .refusedSource => 3
  | .refusedPending => 4
  | .unknownCommand => 5

/-- The field index of a response: 0 except with REFUSED_VALUE (R177). -/
def Status.index (st : Status) : Nat :=
  match st with
  | .refusedValue i => i
  | .ok | .refusedState | .refusedSource | .refusedPending | .unknownCommand => 0

/-- A response: status, field index, data length, data (R177). -/
def Status.response (st : Status) (data : List Byte) : List Byte :=
  field 1 st.code ++ field 1 st.index ++ field 2 data.length ++ data

/-- The station answers a request (R159). -/
def State.answer (st : Status) (data : List Byte) (s : State) : State :=
  s.setPort { s.port with response := st.response data }

/-- What the port sends as its byte `i` of the response phase: the response, then the fill value FFh; only the fill
value once a reset has fallen into the transaction (R159, R177). -/
def Port.byteAt (p : Port) (i : Nat) : Byte := if p.filling then 0xFF#8 else p.response.getD i 0xFF#8

/-- What the port sends as byte `i` of a transaction whose request takes `n` bytes: the fill value while the request is
being received, then the response phase (R159). -/
def Port.sends (p : Port) (n i : Nat) : Byte := if i < n then 0xFF#8 else p.byteAt (i - n)

/-! ### Snapshots (R180) -/

/-- Flag bits packed into one number, the first flag in bit 0. A bit the manual's tables give no meaning is sent as 0 (the
model's choice, log 52). -/
def flagBits (fs : List Bool) : Nat := fs.foldr (fun b n => bit b + 2 * n) 0

/-- A time field, zeros when absent. -/
def timeOption (t : Option Nat) : List Byte := timeField (t.getD 0)

/-- The presence flags of the status snapshot, byte 2. -/
def State.statusFlags (s : State) : Nat :=
  flagBits [s.configured, s.seeded, s.clockValid, s.agreement.estimate.isSome, s.anchor.valid,
    s.anchor.offset.isSome, s.anchor.change.isSome, s.source.coasting]

/-- The pending label change in the status snapshot: offset, effective second, origin; zeros for none. -/
def changeBytes (c : Option LabelChange) : List Byte :=
  match c with
  | some c => signedField 4 c.offset ++ field 6 c.second ++ field 1 c.origin.code
  | none => field 11 0

/-- The status snapshot, 77 bytes (R165, R180). -/
def State.statusSnapshot (s : State) : List Byte :=
  field 1 s.station.state.code ++ field 1 s.station.faultReason.code ++ field 1 s.statusFlags
    ++ field 1 s.source.selected.code ++ field 6 (s.round.getD 0) ++ timeOption s.reading
    ++ field 1 (s.peers.number .heard) ++ field 1 (s.peers.number .counted)
    ++ signedOption 8 s.agreement.estimate ++ signedOption 8 s.agreement.spread
    ++ field 1 s.agreement.shortRounds ++ field 1 s.agreement.disagreements
    ++ signedField 4 s.discipline.rate ++ field 1 s.discipline.band ++ field 1 s.discipline.restart
    ++ field 1 s.source.xo.health.code ++ field 1 s.source.ref.health.code ++ field 1 s.source.synth.code
    ++ signedOption 8 s.anchor.offset ++ signedField 4 s.anchor.labelOffset ++ changeBytes s.anchor.change
    ++ s.gens.toList.flatMap (fun g => field 1 g.state.code) ++ field 1 0

/-- The presence flags of a peer snapshot; bits 11 to 15 are 0 (log 52). -/
def PeerEntry.flags (p : PeerEntry) : Nat :=
  flagBits [p.tag.isSome, p.peerState.isSome, p.counted.isSome, p.deviation.isSome, p.resultDeviation.isSome,
    p.rawLag.isSome, p.delay.isSome, p.anchorOffset.isSome, p.labelOffset.isSome, p.notice.isSome, p.anchored]

/-- The label notice of a peer snapshot, zeros for none. -/
def noticeBytes (n : Option LabelNotice) : List Byte := (n.map LabelNotice.bytes).getD (field 10 0)

/-- The peer snapshot of an entry, 62 bytes (R63, R180). -/
def PeerEntry.snapshot (slot : Fin 32) (p : PeerEntry) : List Byte :=
  field 1 slot.val ++ field 1 p.state.code ++ field 2 p.flags ++ field 4 (p.tag.getD 0)
    ++ field 1 ((p.peerState.map PeerState.code).getD 0) ++ field 1 (p.counted.getD 0)
    ++ field 1 p.observation.code ++ signedOption 8 p.deviation
    ++ field 1 p.resultObservation.code ++ signedOption 8 p.resultDeviation
    ++ signedOption 8 p.rawLag ++ field 1 (if p.state = .self then 0 else p.lagAge.code)
    ++ field 2 (p.delay.getD 0) ++ field 2 p.delayAge
    ++ field 1 p.goodStreak ++ field 1 p.wildStreak ++ field 1 p.absentStreak
    ++ signedOption 4 p.anchorOffset ++ signedOption 4 p.labelOffset ++ noticeBytes p.notice

/-- The flags of a generator snapshot, byte 1; bits 4 to 7 are 0 (log 52). -/
def Generator.flags (g : Generator) : Nat :=
  flagBits [g.latched.isSome, (g.latched.bind (·.word)).isSome, (g.latched.map (·.marker)).getD false, g.rephasePending]

/-- The generator snapshot, 28 bytes (R146, R180). -/
def Generator.snapshot (i : Fin 4) (g : Generator) : List Byte :=
  field 1 i.val ++ field 1 g.flags
    ++ field 1 ((g.latched.map (·.state.code)).getD 0) ++ field 1 g.state.code
    ++ field 8 ((g.latched.map (·.number)).getD 0) ++ timeOption (g.latched.map (·.time))
    ++ field 2 g.rephaseCount ++ bytesOf 4 (((g.latched.bind (·.word)).map BitVec.toNat).getD 0)

/-- The data of READ_TIME, 15 bytes (R101, R177); bits 1 to 7 of its flags are 0 (log 52). -/
def State.timeData (s : State) : List Byte :=
  field 1 (bit s.clockValid) ++ timeOption s.reading ++ signedField 4 s.discipline.rate

/-! ### The notice record (R181) -/

/-- Code of the cause in SOURCE_FAILED. -/
def FailCause.code (c : FailCause) : Nat :=
  match c with
  | .windows => 1
  | .lock => 2

/-- Code of the action in SOURCE_FAILED. -/
def FailAction.code (a : FailAction) : Nat :=
  match a with
  | .switched => 1
  | .lost => 2
  | .unselected => 3

/-- Code of the origin in STEPPED. -/
def StepOrigin.code (o : StepOrigin) : Nat :=
  match o with
  | .joining => 1
  | .estimate => 2
  | .founding => 3

/-- Code of the cause in ANCHOR_CHANGED. -/
def AnchorCause.code (c : AnchorCause) : Nat :=
  match c with
  | .streak => 1
  | .tolerance => 2
  | .silence => 3
  | .clock => 4
  | .configure => 5

/-- The slot byte of LABEL_PENDING: 0 unless ADOPTED. -/
def Origin.slotByte (o : Origin) : Nat :=
  match o with
  | .originated => 0
  | .adopted slot => slot.val

/-- Slot and tag. -/
def slotTag (slot : Fin 32) (tag : Nat) : List Byte := field 1 slot.val ++ field 4 tag

/-- The detail bytes of a notice (R181). -/
def Notice.detail (n : Notice) : List Byte :=
  match n with
  | .restarted powerOn => field 1 (if powerOn then 1 else 2)
  | .stateChanged st c => field 1 st.code ++ field 1 c.code
  | .sourceFailed x c a => field 1 x.code ++ field 1 c.code ++ field 1 a.code
  | .sourceRestored x selected => field 1 x.code ++ field 1 (bit selected)
  | .lockFailed x => field 1 x.code
  | .slotConflict slot (some tag) => field 1 slot.val ++ field 1 Cause.slotTaken.code ++ field 4 tag
  | .slotConflict slot none => field 1 slot.val ++ field 1 Cause.collision.code ++ field 4 0
  | .stepped o a => field 1 o.code ++ signedField 8 a
  | .merged others contributors => field 1 others ++ field 1 contributors
  | .rephased i skipped newRun => field 1 i.val ++ field 1 (bit newRun) ++ signedField 8 skipped
  | .peerAdmitted slot tag => slotTag slot tag
  | .peerExcluded slot tag => slotTag slot tag
  | .peerLost slot tag => slotTag slot tag
  | .peerLeft slot tag => slotTag slot tag
  | .tagClash slot => field 1 slot.val
  | .delayRange slot sample => field 1 slot.val ++ signedField 8 sample
  | .rateBand band up => field 1 band ++ field 1 (if up then 1 else 2)
  | .rateLimit rate => signedField 4 rate
  | .anchorChanged valid c => field 1 (bit valid) ++ field 1 c.code
  | .anchorUnlabelled t => timeField t
  | .anchorsSplit number difference => field 1 number ++ field 8 difference
  | .anchorsFar figure => signedField 8 figure
  | .labelPending c => signedField 4 c.offset ++ field 6 c.second ++ field 1 c.origin.code ++ field 1 c.origin.slotByte
  | .labelApplied offset second => signedField 4 offset ++ field 6 second
  | .labelConflict number c => field 1 number ++ changeBytes c
  | .timecodeHeld i count => field 1 i.val ++ field 8 count
  | .alone => []
  | .noSeed => []

/-- A notice record, 25 bytes (R181); bits 1 to 7 of its flags are 0 (log 52). -/
def PendingRecord.bytes (r : PendingRecord) : List Byte :=
  field 1 r.detail.kind.val ++ field 1 r.repeats ++ field 1 (bit r.time.isSome) ++ timeOption r.time
    ++ (r.detail.detail ++ List.replicate (12 - r.detail.detail.length) 0)

/-- The kind NEXT_NOTICE takes: the pending record of least priority number, then of least index (R168). -/
def NoticeUnit.highest (u : NoticeUnit) : Option (Fin 27) :=
  (List.finRange 4).findSome? fun p =>
    (List.finRange 27).find? fun i => u.records[i].isSome && u.priorities[i] == p

end Sys2Proof.Machine
end

