-- ==== Sys2Proof/Machine/Discipline.lean ====
section
/-! DEFINITION. The discipline rules: steps, slews and rate integration (R88 to R97, R99). -/

namespace Sys2Proof.Machine

/-! ### Rate (R95, R96, R99) -/

/-- The band of a rate adjustment (R96). -/
def bandOf (rate : Int) : Nat :=
  if rate.natAbs < 2000 then 0 else if rate.natAbs < 10000 then 1 else if rate.natAbs < 50000 then 2 else 3

/-- The notice of a change of band (R96). -/
def bandNotices (held new : Nat) : List Notice := if new = held then [] else [.rateBand new (decide (held < new))]

/-- The notice of a rate adjustment at its limit (R95). -/
def limitNotices (rate : Int) : List Notice := if rate.natAbs = 100000 then [.rateLimit rate] else []

/-- The rate adjustment after an integration of `e` (R95). -/
def integrated (rate e : Int) : Int := bounded 100000 (rate + Int.tdiv (e * 125) 64)

/-- The rate is integrated by `e`: limit, holdover record, band (R95, R96, R99). -/
def State.integrate (e : Int) (s : State) : State :=
  let d := s.discipline
  let rate := integrated d.rate e
  (s.setDiscipline { d with rate := rate, holdoverValue := rate, band := bandOf rate }).raiseAll
    (limitNotices rate ++ bandNotices d.band (bandOf rate))

/-- A valid holdover record is loaded on JOIN (R99, R101). -/
def State.loadHoldover (s : State) : State :=
  let d := s.discipline
  if d.holdoverValid then
    (s.setDiscipline { d with rate := d.holdoverValue, band := bandOf d.holdoverValue }).raiseAll
      (bandNotices d.band (bandOf d.holdoverValue))
  else s

/-! ### Slews (R92 to R94) -/

/-- The start of the round after the one that contains a reading, in units of the clock (R93). -/
def nextRoundStart (reading : Nat) : Nat := (roundOf reading + 1) * roundNs * unitsPerNs

/-- A chosen slew becomes the pending slew; a slew of 0 leaves none (R93). -/
def State.chooseSlew (amount : Int) (s : State) : State :=
  match s.reading with
  | some a =>
    s.setDiscipline { s.discipline with slew := if amount = 0 then none else some ⟨amount, 0, nextRoundStart a⟩ }
  | none => s

/-- The steering term alone as a slew; a term of 0 chooses none, and the slew held goes on (R93, R94). -/
def State.steerOnly (steer : Int) (s : State) : State := if steer = 0 then s else s.chooseSlew steer

/-- The smoothed slew, bounded (R92). -/
def smoothedSlew (smoothing slewLimit : Nat) (e : Int) : Int :=
  bounded (slewLimit * 8) (Int.tdiv (((smoothing : Int) + 1) * e) 32)

/-! ### The rules (R88) -/

/-- The rows of R88. -/
inductive DisciplineRow where
  | joiningStep
  | beyondM
  | largeStep
  | restartSlew
  | deadBand
  | smoothed
  deriving DecidableEq, Repr

/-- This agreement point is before the joining step of a stay in JOINING (R68, R88). -/
def State.beforeJoiningStep (s : State) : Bool :=
  decide (s.station.state = .joining) && !s.discipline.joiningStepTaken

/-- The first row of R88 that applies to estimate `e`, marked beyond M or not. -/
def State.row (e : Int) (marked : Bool) (s : State) : DisciplineRow :=
  if s.beforeJoiningStep then .joiningStep
  else if marked then .beyondM
  else if s.config.stepThreshold < e.natAbs then .largeStep
  else if 0 < s.discipline.restart ∨ s.discipline.coastMark = true then .restartSlew
  else if e.natAbs ≤ s.config.deadBand then .deadBand
  else .smoothed

/-- The restart counter set to the restart rounds (R91). -/
def State.setRestart (s : State) : State := s.setDiscipline { s.discipline with restart := s.config.restartRounds }

/-- The coast mark cleared (R88). -/
def State.clearMark (s : State) : State := s.setDiscipline { s.discipline with coastMark := false }

/-- The discipline rules take estimate `e` with steering term `steer` (R88 to R94). -/
def State.applyRules (e : Int) (marked : Bool) (steer : Int) (s : State) : State :=
  match s.row e marked with
  | .joiningStep =>
    let t := s.setRestart.clearMark
    (t.setDiscipline { t.discipline with joiningStepTaken := true }).stepNoticed .joining e
  | .beyondM => s.steerOnly steer
  | .largeStep => s.setRestart.clearMark.stepNoticed .estimate e
  | .restartSlew =>
    let t := (s.setDiscipline { s.discipline with restart := s.discipline.restart - 1 }).clearMark
    (t.chooseSlew (e + steer)).integrate e
  | .deadBand => s.steerOnly steer
  | .smoothed => (s.chooseSlew (smoothedSlew s.config.smoothing s.config.slewLimit e + steer)).integrate e

end Sys2Proof.Machine
end

