-- ==== Sys2Proof/Machine/ResetEvents.lean ====
section
/-! DEFINITION. The two resets (R20, R43, R65, R84, R102, R116, R130, R148, R158, R171, R172) and their commands. -/

namespace Sys2Proof.Machine

/-- The Link Unit after a station reset (R20): the echo pointer at the configured slot + 1, and at 0 where no slot is
configured, which R20 leaves open (log 45). -/
def State.linkAfterReset (s : State) : Link :=
  { Link.reset with echoPointer := if s.configured then s.config.slot + 1 else 0 }

/-- The Peer Table after a station reset (R65): SELF alone, where the station is configured. -/
def State.peersAfterReset (s : State) : PeerTable :=
  if s.configured then PeerTable.rebuilt s.config.slot s.config.tag else PeerTable.reset

/-- The Discipline Unit after a station reset (R102): the holdover record kept, the rate from it. -/
def Discipline.afterReset (d : Discipline) : Discipline :=
  let rate := if d.holdoverValid then d.holdoverValue else 0
  { Discipline.reset with
    rate := rate, band := bandOf rate, holdoverValue := d.holdoverValue, holdoverValid := d.holdoverValid }

/-- The Source Unit after a station reset, before failover and lock (R130; log 42). -/
def State.sourceAfterReset (s : State) : SourceUnit :=
  { s.source.stop.takeEnables s.config with lockCount := 0 }

/-- The Notice Unit after a reset, RESTARTED recorded under its enables (R172). -/
def restartedNotices (enables : Vector Bool 27) (priorities : Vector (Fin 4) 27) (powerOn : Bool) : NoticeUnit :=
  NoticeUnit.occur ⟨Vector.replicate 27 none, enables, priorities⟩ (.restarted powerOn) none

/-- The Control Port after a station reset: record kept, transaction abandoned (R159, R171; logs 15 and 16). A RESET whose
transaction is abandoned so has had its reset: none follows at the end of that transaction (R164; log 47). -/
def Port.afterReset (p : Port) (busy : Bool) : Port := ⟨p.record, [], none, false, busy⟩

/-- The station reset (R164); `busy` says that a transaction is open. The queue of commands is not the part's. -/
def State.stationReset (busy : Bool) (s : State) : State :=
  let t : State := {
    pending := s.pending
    link := s.linkAfterReset
    peers := s.peersAfterReset
    agreement := Agreement.reset
    discipline := s.discipline.afterReset
    station := { Station.reset with faultReason := .reset }
    anchor := { Anchor.reset with labelOffset := s.config.labelOffset }
    source := s.sourceAfterReset
    synthTime := s.synthTime
    gens := Vector.replicate 4 Generator.reset
    timecode := { Timecode.reset with binding := s.config.binding }
    notices := restartedNotices s.config.noticeEnables s.config.noticePriorities false
    port := s.port.afterReset busy }
  t.failover.standbyRule

/-- The power-on reset (R171, R172): every block at its power-on value. -/
def State.powerOn (busy : Bool) (s : State) : State :=
  { State.reset with pending := s.pending, port := { Port.reset with filling := busy } }

/-- POWER_ON_RESET (R172): what stood before is gone; the elapsed time ends in it. -/
def execPowerOnReset (_dt : Elapsed) (busy : Bool) (s : State) : Host.Outcome State Fault Refusal :=
  .next (s.powerOn busy)

/-- STATION_RESET (R164). -/
def execStationReset (dt : Elapsed) (busy : Bool) (s : State) : Host.Outcome State Fault Refusal :=
  .next ((s.elapse dt).stationReset busy)

end Sys2Proof.Machine
end

