-- ==== Sys2Proof/Machine/HostCommands.lean ====
section
/-! DEFINITION. The commands of the control port (R159 to R165, R168, R170, and the rules of the blocks they reach). -/

namespace Sys2Proof.Machine

/-! ### Transactions (R159, R160) -/

/-- A new transaction: the one before it has ended, and with it a RESET it carried takes effect (R164; log 15). -/
def State.endTransaction (s : State) : State := if s.port.resetTaken then s.stationReset false else s

/-- A request begins after the elapsed time: the port receives it normally (R159). -/
def State.request (dt : Elapsed) (s : State) : State :=
  let t := s.endTransaction.elapse dt
  t.setPort { t.port with filling := false }

/-- The checks of R160 after the code, in order: length, state, parameters, and the command's own. -/
def gate (lengthOk stateOk : Bool) (bad : Option Nat) (particular : Option Status) : Option Status :=
  if !lengthOk then some (.refusedValue 0)
  else if !stateOk then some .refusedState
  else
    match bad with
    | some i => some (.refusedValue i)
    | none => particular

/-- A request is answered: a refusal changes nothing but the response; otherwise OK, the data as the state stands when
the command is taken, and the effect (R160). -/
def State.serve (refusal : Option Status) (data : State → List Byte) (effect : State → State) (s : State) : State :=
  match refusal with
  | some st => s.answer st []
  | none => (effect s).answer .ok (data s)

/-- A command that returns no data. -/
def noData (_s : State) : List Byte := []

/-! ### CONFIGURE (R162, R163) -/

/-- The record disables the source the synthesizer is locking, locked or relocking on (R128). -/
def SourceUnit.disablesLock (u : SourceUnit) (r : ConfigRecord) : Bool :=
  match u.synth, u.lockSource with
  | .off, _ => false
  | _, some .xo => !r.xoEnable
  | _, some .ref => !r.refEnable
  | _, none => false

/-- The checks of CONFIGURE (R160, R162, R128). -/
def State.refuseConfigure (ps : List Byte) (s : State) : Option Status :=
  gate (ps.length == 89) (decide (s.station.state = .standby)) (firstFailure (configChecks ps))
    (if s.source.disablesLock (parseConfig ps) then some .refusedSource else none)

/-- CONFIGURE at the Link Unit (R3, R20). -/
def Link.configure (l : Link) (r : ConfigRecord) : Link := { l with lastRoundEnd := none, echoPointer := r.slot + 1 }

/-- CONFIGURE at the Discipline Unit (R101). -/
def Discipline.configure (d : Discipline) : Discipline :=
  { d with restart := 0, slew := none, coastMark := false, joiningStepTaken := false }

/-- CONFIGURE at the Anchor and Label Unit (R115). -/
def State.configureAnchor (r : ConfigRecord) (s : State) : State :=
  (s.setAnchor { s.anchor with
    label := none, silence := 0, labelOffset := r.labelOffset, change := none }).dropAnchor .configure

/-- CONFIGURE at the Source Unit: enables, selection, failover, synthesizer, source loss, R125 (R128; log 26). -/
def State.configureSource (r : ConfigRecord) (s : State) : State :=
  let t := (s.setSource (s.source.takeEnables r)).failover.follow
  t.actOnLoss.standbyRule

/-- CONFIGURE at the Notice Unit: enables and priorities, and the records of disabled kinds cleared (R170). -/
def NoticeUnit.configure (u : NoticeUnit) (r : ConfigRecord) : NoticeUnit where
  records := tabulate 27 fun i => if r.noticeEnables[i] then u.records[i] else none
  enables := r.noticeEnables
  priorities := r.noticePriorities

/-- The record is stored, and the blocks that take nothing else from it start over (R163). -/
def State.storeConfig (r : ConfigRecord) (s : State) : State :=
  { s with
    port := { s.port with record := some r }
    link := s.link.configure r
    peers := PeerTable.rebuilt r.slot r.tag
    agreement := Agreement.reset
    discipline := s.discipline.configure }

/-- CONFIGURE is taken: every block in the order of R163. -/
def State.takeConfig (r : ConfigRecord) (s : State) : State :=
  let t := ((s.storeConfig r).configureAnchor r).configureSource r
  { t with
    gens := tabulate 4 fun i => t.gens[i].configured
    timecode := { t.timecode with binding := r.binding, lastWord := none, hold := false }
    notices := t.notices.configure r }

/-- CONFIGURE. -/
def execConfigure (dt : Elapsed) (ps : List Byte) (s : State) : Host.Outcome State Fault Refusal :=
  let t := s.request dt
  .next (t.serve (t.refuseConfigure ps) noData (·.takeConfig (parseConfig ps)))

/-! ### JOIN, WITHDRAW, RESET -/

/-- The checks of JOIN (R161). -/
def State.refuseJoin (ps : List Byte) (s : State) : Option Status :=
  gate (ps.length == 0) (decide (s.station.state = .standby) && s.configured) none none

/-- JOIN is taken (R23, R101). -/
def State.takeJoin (s : State) : State :=
  let t := s.loadHoldover
  if t.source.synth = .locked then t.enterListen .joined else t.enterStarting .joined

/-- JOIN. -/
def execJoin (dt : Elapsed) (ps : List Byte) (s : State) : Host.Outcome State Fault Refusal :=
  let t := s.request dt
  .next (t.serve (t.refuseJoin ps) noData (·.takeJoin))

/-- The states in which WITHDRAW is accepted (R38, R161). -/
def StationState.withdraws (st : StationState) : Bool :=
  match st with
  | .standby | .withdrawing => false
  | .starting | .listen | .founding | .joining | .agreed | .isolated | .stalled => true

/-- The checks of WITHDRAW (R161). -/
def State.refuseWithdraw (ps : List Byte) (s : State) : Option Status :=
  gate (ps.length == 0) s.station.state.withdraws none none

/-- WITHDRAW is taken (R38). -/
def State.takeWithdraw (s : State) : State :=
  match s.station.state with
  | .founding | .joining | .agreed | .isolated => s.enterWithdrawing .withdraw
  | .starting | .listen | .stalled => s.enterStandby .withdrawn
  | .standby | .withdrawing => s

/-- WITHDRAW. -/
def execWithdraw (dt : Elapsed) (ps : List Byte) (s : State) : Host.Outcome State Fault Refusal :=
  let t := s.request dt
  .next (t.serve (t.refuseWithdraw ps) noData (·.takeWithdraw))

/-- RESET is taken: the reset itself comes with the end of the transaction (R164). -/
def State.takeReset (s : State) : State := s.setPort { s.port with resetTaken := true }

/-- RESET. -/
def execReset (dt : Elapsed) (ps : List Byte) (s : State) : Host.Outcome State Fault Refusal :=
  let t := s.request dt
  .next (t.serve (gate (ps.length == 0) true none none) noData (·.takeReset))

/-! ### SEED_TIME, ANCHOR_LABEL, LABEL_CHANGE -/

/-- The states in which SEED_TIME is accepted (R161). -/
def StationState.takesSeed (st : StationState) : Bool :=
  match st with
  | .standby | .starting | .listen => true
  | .founding | .joining | .agreed | .isolated | .withdrawing | .stalled => false

/-- The checks of SEED_TIME: ns 0 to 999,999,999 is its second parameter (R161, R177). -/
def State.refuseSeed (ps : List Byte) (s : State) : Option Status :=
  gate (ps.length == 10) s.station.state.takesSeed (if natAt ps 6 4 < nsPerSec then none else some 2) none

/-- SEED_TIME is taken (R27). -/
def State.takeSeed (seconds ns : Nat) (s : State) : State :=
  s.setStation { s.station with seed := some ⟨seconds, ns, 0⟩ }

/-- SEED_TIME. -/
def execSeedTime (dt : Elapsed) (ps : List Byte) (s : State) : Host.Outcome State Fault Refusal :=
  let t := s.request dt
  .next (t.serve (t.refuseSeed ps) noData (·.takeSeed (natAt ps 0 6) (natAt ps 6 4)))

/-- The checks of ANCHOR_LABEL (R104, R161). -/
def State.refuseLabel (ps : List Byte) (s : State) : Option Status :=
  gate (ps.length == 6) (s.configured && s.config.anchorEnabled) none none

/-- ANCHOR_LABEL is taken (R104). -/
def State.takeLabel (second : Nat) (s : State) : State := s.setAnchor { s.anchor with label := some second }

/-- ANCHOR_LABEL. -/
def execAnchorLabel (dt : Elapsed) (ps : List Byte) (s : State) : Host.Outcome State Fault Refusal :=
  let t := s.request dt
  .next (t.serve (t.refuseLabel ps) noData (·.takeLabel (natAt ps 0 6)))

/-- The checks of LABEL_CHANGE particular to it: none pending, and the effective second at least two ahead (R111;
log 29). -/
def State.refuseChangeOwn (second : Nat) (s : State) : Option Status :=
  if s.anchor.change.isSome then some .refusedPending
  else if second < s.reading.getD 0 / nsPerSec + 2 then some (.refusedValue 2)
  else none

/-- The checks of LABEL_CHANGE (R111, R161). -/
def State.refuseChange (ps : List Byte) (s : State) : Option Status :=
  gate (ps.length == 10) (decide (s.station.state = .agreed) && s.config.anchorEnabled)
    (if labelOffsetOk (intAt ps 0 4) then none else some 1) (s.refuseChangeOwn (natAt ps 4 6))

/-- LABEL_CHANGE is taken (R111). -/
def State.takeChange (offset : Int) (second : Nat) (s : State) : State :=
  let c : LabelChange := ⟨offset, second, .originated⟩
  (s.setAnchor { s.anchor with change := some c }).raise (.labelPending c)

/-- LABEL_CHANGE. -/
def execLabelChange (dt : Elapsed) (ps : List Byte) (s : State) : Host.Outcome State Fault Refusal :=
  let t := s.request dt
  .next (t.serve (t.refuseChange ps) noData (·.takeChange (intAt ps 0 4) (natAt ps 4 6)))

/-! ### SELECT_SOURCE, RESYNC -/

/-- The check of SELECT_SOURCE on the named source (R127). -/
def SourceUnit.refuseSource (u : SourceUnit) (x : Source) : Option Status :=
  if x = u.selected then none
  else if (u.get x).enabled = true ∧ (u.get x).health = .healthy then none
  else some .refusedSource

/-- The checks of SELECT_SOURCE (R127, R161). -/
def State.refuseSelect (ps : List Byte) (s : State) : Option Status :=
  match parseSource (natAt ps 0 1) with
  | some x => gate (ps.length == 1) true none (s.source.refuseSource x)
  | none => gate (ps.length == 1) true (some 1) none

/-- SELECT_SOURCE is taken (R127); naming the selected source changes nothing. -/
def State.takeSelect (x : Option Source) (s : State) : State :=
  match x with
  | some x => if x = s.source.selected then s else s.select x
  | none => s

/-- SELECT_SOURCE. -/
def execSelectSource (dt : Elapsed) (ps : List Byte) (s : State) : Host.Outcome State Fault Refusal :=
  let t := s.request dt
  .next (t.serve (t.refuseSelect ps) noData (·.takeSelect (parseSource (natAt ps 0 1))))

/-- The states in which RESYNC is accepted (R161). -/
def StationState.resyncs (st : StationState) : Bool :=
  match st with
  | .joining | .agreed | .isolated => true
  | .standby | .starting | .listen | .founding | .withdrawing | .stalled => false

/-- The checks of RESYNC (R161). -/
def State.refuseResync (ps : List Byte) (s : State) : Option Status :=
  gate (ps.length == 0) s.station.state.resyncs none none

/-- RESYNC. -/
def execResync (dt : Elapsed) (ps : List Byte) (s : State) : Host.Outcome State Fault Refusal :=
  let t := s.request dt
  .next (t.serve (t.refuseResync ps) noData (·.setRestart))

/-! ### ENABLE_NOTICES, NEXT_NOTICE -/

/-- The first of mask and values with an item beyond index 26 (R170). -/
def badNoticeBits (ps : List Byte) : Option Nat :=
  if 2 ^ 27 ≤ natAt ps 0 4 then some 1 else if 2 ^ 27 ≤ natAt ps 4 4 then some 2 else none

/-- The checks of ENABLE_NOTICES (R161, R170). -/
def refuseEnables (ps : List Byte) : Option Status := gate (ps.length == 8) true (badNoticeBits ps) none

/-- The live enable of a kind after ENABLE_NOTICES (R170). -/
def newEnable (mask values : Nat) (held : Bool) (i : Fin 27) : Bool := if bitAt mask i.val then bitAt values i.val else held

/-- ENABLE_NOTICES is taken (R170). -/
def NoticeUnit.enable (u : NoticeUnit) (mask values : Nat) : NoticeUnit :=
  { u with
    enables := tabulate 27 fun i => newEnable mask values u.enables[i] i
    records := tabulate 27 fun i => if newEnable mask values u.enables[i] i then u.records[i] else none }

/-- ENABLE_NOTICES. -/
def execEnableNotices (dt : Elapsed) (ps : List Byte) (s : State) : Host.Outcome State Fault Refusal :=
  let t := s.request dt
  .next (t.serve (refuseEnables ps) noData (fun u => u.setNotices (u.notices.enable (natAt ps 0 4) (natAt ps 4 4))))

/-- The data of NEXT_NOTICE: the record of highest priority, or FFh for NONE (R168, R177). -/
def State.noticeData (s : State) : List Byte :=
  match s.notices.highest with
  | some i => (s.notices.records[i].map PendingRecord.bytes).getD [0xFF#8]
  | none => [0xFF#8]

/-- NEXT_NOTICE clears the record it returns (R168). -/
def NoticeUnit.take (u : NoticeUnit) : NoticeUnit :=
  match u.highest with
  | some i => { u with records := put u.records i none }
  | none => u

/-- NEXT_NOTICE. -/
def execNextNotice (dt : Elapsed) (ps : List Byte) (s : State) : Host.Outcome State Fault Refusal :=
  let t := s.request dt
  .next (t.serve (gate (ps.length == 0) true none none) State.noticeData (fun u => u.setNotices u.notices.take))

/-! ### Snapshots (R63, R101, R146, R165) -/

/-- READ_STATUS. -/
def execReadStatus (dt : Elapsed) (ps : List Byte) (s : State) : Host.Outcome State Fault Refusal :=
  let t := s.request dt
  .next (t.serve (gate (ps.length == 0) true none none) State.statusSnapshot id)

/-- The checks of a command with one byte that names a place of a table of `n` (R161). -/
def refusePlace (n : Nat) (ps : List Byte) : Option Status :=
  gate (ps.length == 1) true (if natAt ps 0 1 < n then none else some 1) none

/-- The data of READ_PEER (R63). -/
def State.peerData (slot : Fin 32) (s : State) : List Byte := s.peers.entries[slot].snapshot slot

/-- READ_PEER. -/
def execReadPeer (dt : Elapsed) (ps : List Byte) (s : State) : Host.Outcome State Fault Refusal :=
  let t := s.request dt
  .next (t.serve (refusePlace 32 ps) (State.peerData (Fin.ofNat 32 (natAt ps 0 1))) id)

/-- The data of READ_GENERATOR (R146). -/
def State.generatorData (i : Fin 4) (s : State) : List Byte := s.gens[i].snapshot i

/-- READ_GENERATOR. -/
def execReadGenerator (dt : Elapsed) (ps : List Byte) (s : State) : Host.Outcome State Fault Refusal :=
  let t := s.request dt
  .next (t.serve (refusePlace 4 ps) (State.generatorData (Fin.ofNat 4 (natAt ps 0 1))) id)

/-- READ_TIME latches the agreed clock (R101). -/
def State.latchTime (s : State) : State := s.setPort { s.port with latchedTime := s.reading }

/-- READ_TIME. -/
def execReadTime (dt : Elapsed) (ps : List Byte) (s : State) : Host.Outcome State Fault Refusal :=
  let t := s.request dt
  .next (t.serve (gate (ps.length == 0) true none none) State.timeData (·.latchTime))

/-! ### Requests that are not commands, and those cut short -/

/-- UNKNOWN_COMMAND: answered at the length it declared, nothing acted on (R160). -/
def execUnknownCommand (dt : Elapsed) (_code : Byte) (_ps : List Byte) (s : State) : Host.Outcome State Fault Refusal :=
  .next ((s.request dt).answer .unknownCommand [])

/-- TRANSACTION_ABANDONED: no command is taken, the port has sent the fill value alone (R159). -/
def execTransactionAbandoned (dt : Elapsed) (s : State) : Host.Outcome State Fault Refusal :=
  let t := s.request dt
  .next (t.setPort { t.port with response := [] })

end Sys2Proof.Machine
end

