-- ==== Sys2Proof/Machine/Agreement.lean ====
section
/-! DEFINITION. The agreement point: contributors, quorum, estimate, merge test, disagreement, and what the outcome does
(chapter 4; R33, R34, R36, R37). -/

namespace Sys2Proof.Machine

/-! ### Contributors (R67 to R70) -/

/-- The countable peer states (R67). -/
def PeerState.countable (p : PeerState) : Bool :=
  match p with
  | .agreed | .isolated | .founding => true
  | .joining | .withdrawing => false

/-- A round result that lets an entry contribute (R68). -/
def usable (beforeStep : Bool) (o : Observation) : Bool :=
  match o with
  | .good => true
  | .wild => beforeStep
  | .none | .absent | .leaving => false

/-- The entry is a contributor (R68). -/
def PeerEntry.contributes (beforeStep : Bool) (p : PeerEntry) : Bool :=
  (p.state == .counted) && (p.peerState.map PeerState.countable).getD false && p.resultDeviation.isSome
    && usable beforeStep p.resultObservation

/-- The contributing entries other than SELF, in slot order (R68). -/
def State.contributors (s : State) : List (Fin 32) :=
  (List.finRange 32).filter fun i => s.peers.entries[i].contributes s.beforeJoiningStep

/-- The deviations of a list of entries, as their round results carry them. -/
def PeerTable.deviations (t : PeerTable) (is : List (Fin 32)) : List Int :=
  is.filterMap fun i => t.entries[i].resultDeviation

/-- The deviation list of the round: SELF at 0 and the contributors (R69). -/
def State.deviationList (s : State) : List Int := 0 :: s.peers.deviations s.contributors

/-- The round has quorum (R70). -/
def State.quorum (s : State) : Bool :=
  match s.station.state with
  | .joining => decide (1 ≤ s.contributors.length)
  | _ => decide (s.config.quorum ≤ s.contributors.length)

/-! ### The estimate (R72, R73) -/

/-- The values kept of a deviation list: sorted, the k lowest and the k highest discarded (R72). -/
def keptValues (devs : List Int) : List Int :=
  let k := (devs.length - 1) / 4
  ((devs.insertionSort (· ≤ ·)).drop k).take (devs.length - 2 * k)

/-- The estimate: the mean of the kept values, rounded toward zero (R73). -/
def estimateOf (devs : List Int) : Int := Int.tdiv (keptValues devs).sum (keptValues devs).length

/-- The spread: greatest minus least kept value (R73). -/
def spreadOf (devs : List Int) : Int := extent (keptValues devs)

/-- The estimate of this round (R73). -/
def State.estimate (s : State) : Int := estimateOf s.deviationList

/-- Estimate and spread are stored, and the short-round count is 0 (R71, R73). -/
def State.recordEstimate (s : State) : State :=
  s.setAgreement { s.agreement with
    estimate := some s.estimate, spread := some (spreadOf s.deviationList), shortRounds := 0 }

/-- A short round raises the short-round count (R71). -/
def State.countShort (s : State) : State :=
  s.setAgreement { s.agreement with shortRounds := min 255 (s.agreement.shortRounds + 1) }

/-! ### The merge test (R76 to R78) -/

/-- An entry of the other group X (R76). -/
def PeerEntry.strays (p : PeerEntry) : Bool :=
  (p.state == .excluded) && p.delay.isSome && (p.resultObservation == .wild) && p.resultDeviation.isSome
    && (p.peerState == some .agreed || p.peerState == some .isolated)

/-- The other group, in slot order (R76). -/
def State.otherGroup (s : State) : List (Fin 32) := (List.finRange 32).filter fun i => s.peers.entries[i].strays

/-- The merge test applies: X is a group within 2W (R77). -/
def State.mergeApplies (s : State) : Bool :=
  !s.otherGroup.isEmpty
    && decide (extent ((s.peers.deviations s.otherGroup).insertionSort (· ≤ ·)) ≤ 2 * s.config.window)

/-- The lowest slot of X and of the contributor set together belongs to X (R77). -/
def State.otherHoldsLowest (s : State) : Bool :=
  (s.config.slot :: s.contributors).all fun i => s.otherGroup.any fun j => decide (j < i)

/-- The merge test finds this station in the minority (R77). -/
def State.minority (s : State) : Bool :=
  let x := s.otherGroup.length
  let n := s.contributors.length + 1
  s.mergeApplies && (decide (n < x) || (x == n && s.otherHoldsLowest))

/-- A station in the minority leaves its group (R78, R36). -/
def State.merge (s : State) : State :=
  let others := s.otherGroup
  let own := s.contributors
  let t := s.setPeers (s.peers.exchange others own)
  (t.enterJoining .merge).raise (.merged others.length (own.length + 1))

/-! ### Outcomes -/

/-- The estimate is beyond M (R75). -/
def State.beyondM (e : Int) (s : State) : Bool := decide (s.config.maxStep < e.natAbs)

/-- The disagreement count after the comparison (R75). -/
def State.compareM (e : Int) (s : State) : State :=
  s.setAgreement { s.agreement with
    disagreements := if s.beyondM e then min 3 (s.agreement.disagreements + 1) else 0 }

/-- A short round acts in AGREED: the steering term is slewed, and the eighth moves the station to ISOLATED (R36, R71,
R94). -/
def State.shortAgreed (steer : Int) (s : State) : State :=
  let t := s.countShort.steerOnly steer
  if 8 ≤ t.agreement.shortRounds then t.enterIsolated .quorum else t

/-- The settle count after an agreement point with estimate `e`, once the joining step has been taken (R33). -/
def settleAfter (threshold : Nat) (held : Nat) (e : Int) : Nat := if e.natAbs ≤ threshold then held + 1 else 0

/-- The fourth settled point moves a JOINING station to AGREED, with the majority label offset (R33, R34). -/
def State.settle (s : State) : State :=
  if 4 ≤ s.station.settleCount then (s.enterAgreed .settled).takeMajorityOffset else s

/-- An agreement point in JOINING (R33, R74, R89); the joining step does not count toward settling. -/
def State.pointJoining (s : State) : State :=
  if s.quorum then
    let e := s.estimate
    let count := settleAfter s.config.stepThreshold s.station.settleCount e
    let t := s.recordEstimate.applyRules e false 0
    if s.discipline.joiningStepTaken then (t.setStation { t.station with settleCount := count }).settle else t
  else
    let t := s.countShort
    t.setStation { t.station with settleCount := 0 }

/-- An estimate in AGREED after the merge test: disagreement, discipline, and DISAGREE at the third (R36, R74, R75). -/
def State.takeAgreed (e : Int) (steer : Int) (s : State) : State :=
  let t := (s.compareM e).applyRules e (s.beyondM e) steer
  if 3 ≤ t.agreement.disagreements then t.enterJoining .disagree else t

/-- An agreement point in AGREED (R36, R74 to R78). -/
def State.pointAgreed (steer : Int) (s : State) : State :=
  if s.quorum then
    if s.minority then s.recordEstimate.merge else s.recordEstimate.takeAgreed s.estimate steer
  else s.shortAgreed steer

/-- An agreement point in ISOLATED: the first with quorum regains the studio (R37, R79). -/
def State.pointIsolated (steer : Int) (s : State) : State :=
  if s.quorum then ((s.recordEstimate.enterAgreed .regained).setRestart).takeAgreed s.estimate steer
  else s.countShort

/-- An agreement point in WITHDRAWING: recorded, not applied (R74). -/
def State.pointWithdrawing (s : State) : State := if s.quorum then s.recordEstimate else s.countShort

/-- An anchor figure is formed at this agreement point (R108). -/
def State.steers (s : State) : Bool :=
  decide (s.station.state = .agreed) || (decide (s.station.state = .isolated) && s.quorum)

/-- The agreement point (R66), its label notices and its anchor figure taken first (R80, R108, R112; log 34). -/
def State.agreementPoint (s : State) : State :=
  match s.station.state with
  | .joining => (s.examineLabels s.contributors).pointJoining
  | .agreed | .isolated =>
    let t := s.examineLabels s.contributors
    let steering := if t.steers then t.steer t.contributors else (0, [])
    let u := t.raiseAll steering.2
    if u.station.state = .agreed then u.pointAgreed steering.1 else u.pointIsolated steering.1
  | .withdrawing => s.pointWithdrawing
  | .standby | .starting | .listen | .founding | .stalled => s

end Sys2Proof.Machine
end

