-- ==== Sys2Proof/Machine/Rounds.lean ====
section
/-! DEFINITION. The round end as one event: the Link Unit's signal (R3), the round close (R54), the Station Controller
(R25, R30, R35) and the agreement point (R66); and its named outcomes. -/

namespace Sys2Proof.Machine

/-- Half ns of synthesizer time between the round ends of LISTEN without a valid clock (R3). -/
abbrev listenRoundHalfNs : Nat := 16000000

/-- The reading has reached the start of a round it had not been followed into (R2, R3). -/
def Link.reaches (l : Link) (n : Nat) : Bool :=
  match l.followed with
  | none => true
  | some m => decide (m < n)

/-- The round end that is due: the index of the round that has ended, or none for a round end counted in synthesizer
time (R3). -/
def State.roundEndDue (s : State) : Option (Option Nat) :=
  if s.station.state.closesRounds then
    match s.round with
    | some n => if s.link.reaches n && s.link.startsLater n && decide (0 < n) then some (some (n - 1)) else none
    | none =>
      match s.link.listenRound with
      | some t => if listenRoundHalfNs ≤ t then some none else none
      | none => none
  else none

/-- The last round end after a signal; it does not fall (R3; log 7). -/
def lastAfter (held : Option Nat) (n : Nat) : Nat :=
  match held with
  | some m => max m n
  | none => n

/-- The Link Unit signals a round end (R3); the arrivals of the next round begin (R9). -/
def State.signal (index : Option Nat) (s : State) : State :=
  let l := s.link
  match index with
  | some n =>
    s.setLink { l with
      lastRoundEnd := some (lastAfter l.lastRoundEnd n), followed := s.round, arrivals := Vector.replicate 32 false }
  | none =>
    s.setLink { l with
      listenRound := l.listenRound.map (· - listenRoundHalfNs), arrivals := Vector.replicate 32 false }

/-- A round end in LISTEN lowers the listen timer (R25). -/
def State.countListen (s : State) : State :=
  match s.station.listenTimer with
  | none => s
  | some k =>
    let t := s.setStation { s.station with listenTimer := some (k - 1) }
    if k ≤ 1 then t.listenExpiry else t

/-- The founding count: entries with a delay estimate that show JOINING or AGREED (R30). -/
def State.foundingCount (s : State) : Nat :=
  ((List.finRange 32).filter fun i =>
    s.peers.entries[i].delay.isSome
      && (s.peers.entries[i].peerState == some .joining || s.peers.entries[i].peerState == some .agreed)).length

/-- A round close in FOUNDING (R30). -/
def State.countFounding (s : State) : State :=
  if s.config.quorum ≤ s.foundingCount then s.enterAgreed .founded
  else
    let t := s.setStation { s.station with foundingTimer := s.station.foundingTimer + 1 }
    if 64 ≤ t.station.foundingTimer then t.enterListen .timeout else t

/-- No entry is HEARD or COUNTED (R35). -/
def State.silent (s : State) : Bool := s.peers.number .heard == 0 && s.peers.number .counted == 0

/-- A round close in JOINING (R35). -/
def State.countSilence (s : State) : State :=
  if s.silent then
    let t := s.setStation { s.station with silenceCount := s.station.silenceCount + 1 }
    if 16 ≤ t.station.silenceCount then t.enterListen .timeout else t
  else s.setStation { s.station with silenceCount := 0 }

/-- The Station Controller acts on a round close (R54). -/
def State.controlClose (s : State) : State :=
  match s.station.state with
  | .listen => s.countListen
  | .founding => s.countFounding
  | .joining => s.countSilence
  | .standby | .starting | .agreed | .isolated | .withdrawing | .stalled => s

/-- A round end up to the agreement point: signal, round close, Station Controller (R3, R54). -/
def State.closeRound (index : Option Nat) (s : State) : State := ((s.signal index).closeTable).controlClose

/-- A whole round end (R54, R66). -/
def State.passRound (index : Option Nat) (s : State) : State := (s.closeRound index).agreementPoint

/-- Round ends that forward steps owe are taken at the same instant (R3; log 7). After a step no entry has a deviation,
so the round end it owes takes no further step, and two suffice. -/
def State.settleOwed (fuel : Nat) (s : State) : State :=
  match s.link.owedRoundEnd with
  | none => s
  | some n =>
    let t := s.setLink { s.link with owedRoundEnd := none }
    match fuel with
    | 0 => t
    | k + 1 => (t.passRound (some n)).settleOwed k

/-- A round end with what it owes. -/
def State.roundEnd (index : Option Nat) (s : State) : State := (s.passRound index).settleOwed 2

/-- The round end that is due is taken; without one nothing happens. -/
def State.roundEndIf (s : State) : State :=
  match s.roundEndDue with
  | some index => s.roundEnd index
  | none => s

/-- The due round end is taken when it comes to the outcome `named` (log 3). -/
def State.roundEndTo (named : Option Nat → State → Bool) (s : State) : State :=
  match s.roundEndDue with
  | some index => if named index s then s.roundEnd index else s
  | none => s

/-! ### Named outcomes of a round end -/

/-- The change of state entry `slot` makes at the round close (R57); SELF makes none. -/
def State.closingOf (slot : Fin 32) (s : State) : CloseChange := s.peers.entries[slot].closing s.config.admission

/-- The entry is admitted (R58, R59). -/
def State.admits (slot : Fin 32) (s : State) : Bool := s.closingOf slot == .admitted || s.closingOf slot == .readmitted

/-- The entry is excluded (R59). -/
def State.excludes (slot : Fin 32) (s : State) : Bool := s.closingOf slot == .excluded

/-- The entry is demoted (R60). -/
def State.demotes (slot : Fin 32) (s : State) : Bool := s.closingOf slot == .demoted

/-- The entry is lost (R60). -/
def State.loses (slot : Fin 32) (s : State) : Bool := s.closingOf slot == .lost

/-- The delay estimate of the entry expires (R56). -/
def State.expires (slot : Fin 32) (s : State) : Bool :=
  s.peers.entries[slot].state != .self && s.peers.entries[slot].expires

/-- The close moves a founder back to LISTEN (R30). -/
def State.foundingTimesOut (index : Option Nat) (s : State) : Bool :=
  decide (s.station.state = .founding) && decide ((s.closeRound index).station.state = .listen)

/-- The close moves a joining station back to LISTEN (R35). -/
def State.joiningTimesOut (index : Option Nat) (s : State) : Bool :=
  decide (s.station.state = .joining) && decide ((s.closeRound index).station.state = .listen)

/-- The close expires the listen timer (R25). -/
def State.listenExpires (s : State) : Bool := decide (s.station.state = .listen) && s.station.listenTimer == some 1

/-- The agreement point is the eighth short round in AGREED (R36). -/
def State.losesQuorum (index : Option Nat) (s : State) : Bool :=
  let t := s.closeRound index
  decide (t.station.state = .agreed) && !t.quorum && decide (8 ≤ t.agreement.shortRounds + 1)

/-- The agreement point is the third in AGREED with an estimate beyond M (R36). -/
def State.disagrees (index : Option Nat) (s : State) : Bool :=
  let t := s.closeRound index
  decide (t.station.state = .agreed) && t.quorum && !t.minority && t.beyondM t.estimate
    && decide (3 ≤ t.agreement.disagreements + 1)

/-- The agreement point is the fourth settled in JOINING (R33). -/
def State.settles (index : Option Nat) (s : State) : Bool :=
  let t := s.closeRound index
  decide (t.station.state = .joining) && t.quorum && t.discipline.joiningStepTaken
    && decide (4 ≤ settleAfter t.config.stepThreshold t.station.settleCount t.estimate)

end Sys2Proof.Machine
end

