-- ==== Sys2Proof/Machine/LineEvents.lean ====
section
/-! DEFINITION. The events of the timing line: frames received, and the station's own beacon (R8 to R18, R28 to R32,
R39, R40). -/

namespace Sys2Proof.Machine

/-! ### Good beacons (R11, R12, R28, R31) -/

/-- Steps taken after the timing mark of a frame that completes now, which move its timestamp (R51; log 5). -/
def State.stepsSince (since : Nat) (s : State) : Int :=
  ((s.link.recentSteps.filter fun x => decide (s.synthTime < x.1 + 2 * since)).map (·.2)).sum

/-- The raw lag of a beacon: timestamp minus intended departure, on the clock as it now reads (R5; log 5). -/
def State.rawLag (m : Mark) (b : Beacon) (s : State) : Option Int :=
  m.agreed.map fun t : Nat => (t : Int) + s.stepsSince m.since - intendedDeparture b.round b.slot

/-- A good beacon moves the station to JOINING: from LISTEN (R28), or a founder that gives way (R31). -/
def State.integrates (b : Beacon) (s : State) : Option Cause :=
  match s.station.state, b.state with
  | .listen, .agreed | .listen, .isolated | .listen, .founding => some .integrated
  | .founding, .agreed => some .yielded
  | .founding, .founding => if b.slot < s.config.slot then some .yielded else none
  | _, _ => none

/-- The clock is set so that the intended departure is the instant of the timing mark (R28): a valid clock is stepped by
the negative of the raw lag, an invalid one set. Where the mark was taken on a clock then invalid, the step is to the
same reading (log 32). -/
def State.integrateClock (lag : Option Int) (m : Mark) (b : Beacon) (s : State) : State :=
  let target := intendedDeparture b.round b.slot + m.since
  match s.reading, lag with
  | none, _ => s.setClock (target * unitsPerNs)
  | some _, some x => s.stepClock (-x)
  | some a, none => s.stepClock ((target : Int) - a)

/-- Integration: JOINING is entered, the clock set, and a round end a forward step owes is taken (R28, R31; log 7). -/
def State.integrateTo (cause : Cause) (m : Mark) (b : Beacon) (s : State) : State :=
  (((s.enterJoining cause).integrateClock (s.rawLag m b) m b)).settleOwed 2

/-- The arrival of a good beacon in this round is noted (R9; log 22). -/
def State.noteArrival (slot : Fin 32) (s : State) : State :=
  s.setLink { s.link with arrivals := put s.link.arrivals slot true }

/-- A good beacon is handed to the Station Controller and to its Peer Table entry (R11, R12); an integrating beacon
reaches the entry with raw lag 0 (R28). -/
def State.handOn (m : Mark) (b : Beacon) (s : State) : State :=
  match s.integrates b with
  | some cause => ((s.integrateTo cause m b).noteArrival b.slot).handToPeer b.slot (some 0) b
  | none => (s.noteArrival b.slot).handToPeer b.slot (s.rawLag m b) b

/-! ### Collisions (R32, R40) -/

/-- The states that a third collision sends to STANDBY (R40). -/
def StationState.collides (st : StationState) : Bool :=
  match st with
  | .joining | .agreed | .isolated | .withdrawing => true
  | .standby | .starting | .listen | .founding | .stalled => false

/-- The Station Controller takes a collision report (R32, R40). -/
def State.collided (s : State) : State :=
  if s.station.state = .founding then (s.setStation { s.station with extraListen := 32 }).enterListen .collision
  else if s.station.state.collides && decide (3 ≤ s.link.collisions) then
    (s.enterStandby .collision).raise (.slotConflict s.config.slot none)
  else s

/-! ### Classification (R8 to R12, R18) -/

/-- The tag clashes: the own tag, or one held by another entry than `slot` (R9, R12). -/
def State.clashes (slot : Fin 32) (b : Beacon) (s : State) : Bool :=
  b.tag == s.config.tag || s.peers.heldElsewhere slot b.tag

/-- The own window of round `n` is still to be judged, or the reading lies in it (R18). -/
def State.windowOpen (n : Nat) (s : State) : Bool :=
  s.link.toJudge == some n || (s.reading.map (inWindowOf n s.config.slot)).getD false

/-- A frame of an own window already judged: the window is judged anew, and a collision that comes of it is reported
(R18, R19; log 19). -/
def State.judgeAnew (j : JudgedWindow) (b : Option Beacon) (s : State) : State :=
  let t := s.setLink { s.link with
    judged := some (j.add s.config.tag b), collisions := s.link.countAnew j s.config.tag b }
  if j.collidesWith s.config.tag b then t.collided else t

/-- A frame whose timing mark came in the own window of round `n` is read back: into the record of that window while it is
open, into its judgement after it (R18; log 19). -/
def State.readBackFrame (n : Nat) (b : Option Beacon) (s : State) : State :=
  if s.link.mode ≠ .windowed then s
  else if s.windowOpen n then s.setLink { s.link with readBack := s.link.readBack.add s.config.tag b }
  else
    match s.link.judgedIn n with
    | some j => s.judgeAnew j b
    | none => s

/-- A frame in the window of another slot (R9): damaged, misplaced, clashing, second of its round, or good. -/
def State.windowedFrame (slot : Fin 32) (bytes : List Byte) (m : Mark) (s : State) : State :=
  match parseBeacon bytes with
  | none => s
  | some b =>
    if b.slot ≠ slot then s
    else if s.clashes slot b then s.raise (.tagClash slot)
    else if s.link.arrivals[slot] then s
    else s.handOn m b

/-- An own-slot beacon reaches the Station Controller (R29). -/
def State.ownSlotBeacon (b : Beacon) (s : State) : State :=
  if s.station.state = .listen then
    (s.enterStandby .slotTaken).raise (.slotConflict s.config.slot (some b.tag))
  else s

/-- A frame received in OPEN mode (R12). -/
def State.openFrame (bytes : List Byte) (m : Mark) (s : State) : State :=
  match parseBeacon bytes with
  | none => s
  | some b =>
    if b.tag = s.config.tag then s.raise (.tagClash b.slot)
    else if b.slot = s.config.slot then s.ownSlotBeacon b
    else if s.peers.heldElsewhere b.slot b.tag then s.raise (.tagClash b.slot)
    else s.handOn m b

/-- A frame completes (R4, R9): one whose mark came while reception was OFF or the station coasting is discarded, and so
is one being received when the mode becomes OFF. -/
def State.frameCompletes (bytes : List Byte) (m : Mark) (s : State) : State :=
  if m.coasting = true ∨ s.link.mode = .off then s
  else
    match m.mode, m.agreed with
    | .windowed, some t =>
      if slotOf t = s.config.slot then s.readBackFrame (roundOf t) (parseBeacon bytes) else s.windowedFrame (slotOf t) bytes m
    | .openMode, _ => s.openFrame bytes m
    | .windowed, none | .off, _ => s

/-- FRAME_RECEIVED. -/
def execFrameReceived (dt : Elapsed) (bytes : List Byte) (since : Nat) (s : State) : Host.Outcome State Fault Refusal :=
  let t := s.elapse dt
  .next (t.frameCompletes bytes (t.markAt since))

/-! ### The own beacon (R15, R16, R39) -/

/-- The beacon is built where a build is due (R15). -/
def State.buildIf (s : State) : State :=
  match s.buildDue with
  | some (st, n) => s.build st n
  | none => s

/-- BEACON_BUILD. -/
def execBeaconBuild (dt : Elapsed) (s : State) : Host.Outcome State Fault Refusal := .next (s.elapse dt).buildIf

/-- The frame of the built beacon begins where it is due (R16). -/
def State.frameIf (s : State) : State :=
  match s.frameDue with
  | some b => s.beginFrame b
  | none => s

/-- FRAME_START. -/
def execFrameStart (dt : Elapsed) (s : State) : Host.Outcome State Fault Refusal := .next (s.elapse dt).frameIf

/-- A departure reported with the state its beacon was built with: the second WITHDRAWING one ends the withdrawal
(R39). -/
def State.countDeparture (st : PeerState) (s : State) : State :=
  if s.station.state = .withdrawing ∧ st = .withdrawing then
    let t := s.setStation { s.station with withdrawCount := s.station.withdrawCount + 1 }
    if 2 ≤ t.station.withdrawCount then t.enterStandby .withdrawn else t
  else s

/-- The frame on the line has ended: the transmitter is released and the departure of its beacon reported (R16). -/
def State.departIf (s : State) : State :=
  match s.frameEnded with
  | some x =>
    match s.link.departing with
    | some b => (s.releaseFrame x).countDeparture b.beacon.state
    | none => s.releaseFrame x
  | none => s

/-- BEACON_DEPARTURE. -/
def execBeaconDeparture (dt : Elapsed) (s : State) : Host.Outcome State Fault Refusal := .next (s.elapse dt).departIf

/-- The departure that ends the frame on the line is the second of a withdrawal (R39). -/
def State.withdrawalEnds (s : State) : Bool :=
  s.frameEnded.isSome && decide (s.station.state = .withdrawing) && decide (1 ≤ s.station.withdrawCount)
    && (s.link.departing.map fun b => b.beacon.state == .withdrawing).getD false

/-- WITHDRAWN: the departure that ends the withdrawal (log 3). -/
def execWithdrawn (dt : Elapsed) (s : State) : Host.Outcome State Fault Refusal :=
  let t := s.elapse dt
  .next (if t.withdrawalEnds then t.departIf else t)

/-! ### The own window (R18, R19, R32, R40) -/

/-- The own window closes: judgement, count and report (R18, R19). -/
def State.endWindow (s : State) : State :=
  if s.link.verdict = some .collision then s.closeWindow.collided else s.closeWindow

/-- The own window closes where it has passed. -/
def State.windowIf (s : State) : State := if s.windowClosed then s.endWindow else s

/-- OWN_WINDOW_CLOSE. -/
def execOwnWindowClose (dt : Elapsed) (s : State) : Host.Outcome State Fault Refusal := .next (s.elapse dt).windowIf

/-- The window that closes is the third collision (R40). -/
def State.thirdCollision (s : State) : Bool :=
  s.windowClosed && (s.link.verdict == some .collision) && s.station.state.collides && decide (2 ≤ s.link.collisions)

/-- COLLISION: the window close that sends the station to STANDBY (log 3). -/
def execCollision (dt : Elapsed) (s : State) : Host.Outcome State Fault Refusal :=
  let t := s.elapse dt
  .next (if t.thirdCollision then t.endWindow else t)

end Sys2Proof.Machine
end

