-- ==== Sys2Proof/Machine/OutputEvents.lean ====
section
/-! DEFINITION. Events of the generator pins and of the timecode output (R134, R136, R157). -/

namespace Sys2Proof.Machine

/-- The boundary of generator `i` is taken where it is due (R136). -/
def State.boundaryIf (i : Fin 4) (s : State) : State := if s.boundaryDue i then s.takeBoundary i else s

/-- GENERATOR_BOUNDARY. -/
def execGeneratorBoundary (dt : Elapsed) (i : Fin 4) (s : State) : Host.Outcome State Fault Refusal :=
  .next ((s.elapse dt).boundaryIf i)

/-- The pin goes low once its pulse width has run in synthesizer time `now` (R134). -/
def Generator.lower (now : Nat) (g : Generator) : Generator :=
  match g.pinHighUntil with
  | some t => if t ≤ now then { g with pinHighUntil := none } else g
  | none => g

/-- Generator `i`'s pin. -/
def State.lowerPin (i : Fin 4) (s : State) : State := s.setGens (put s.gens i (s.gens[i].lower s.synthTime))

/-- PIN_LOW_AGAIN. -/
def execPinLowAgain (dt : Elapsed) (i : Fin 4) (s : State) : Host.Outcome State Fault Refusal :=
  .next ((s.elapse dt).lowerPin i)

/-- The output returns to IDLE once the word has been sent at synthesizer time `now` (R157). -/
def Timecode.finish (now : Nat) (t : Timecode) : Timecode :=
  match t.output with
  | some w => if w.doneAt ≤ now then { t with output := none } else t
  | none => t

/-- TIMECODE_WORD_SENT. -/
def execTimecodeWordSent (dt : Elapsed) (s : State) : Host.Outcome State Fault Refusal :=
  let t := s.elapse dt
  .next (t.setTimecode (t.timecode.finish t.synthTime))

end Sys2Proof.Machine
end

