-- ==== Sys2Proof/Machine/RoundEvents.lean ====
section
/-! DEFINITION. ROUND_END and the rows of the table that name what a round end comes to (R3, R26, R30, R33, R35, R36,
R56 to R60; logs 2 and 3). -/

namespace Sys2Proof.Machine

/-- ROUND_END. -/
def execRoundEnd (dt : Elapsed) (s : State) : Host.Outcome State Fault Refusal := .next (s.elapse dt).roundEndIf

/-- PEER_ADMITTED. -/
def execPeerAdmitted (dt : Elapsed) (slot : Fin 32) (s : State) : Host.Outcome State Fault Refusal :=
  .next ((s.elapse dt).roundEndTo fun _ t => t.admits slot)

/-- PEER_EXCLUDED. -/
def execPeerExcluded (dt : Elapsed) (slot : Fin 32) (s : State) : Host.Outcome State Fault Refusal :=
  .next ((s.elapse dt).roundEndTo fun _ t => t.excludes slot)

/-- PEER_DEMOTED. -/
def execPeerDemoted (dt : Elapsed) (slot : Fin 32) (s : State) : Host.Outcome State Fault Refusal :=
  .next ((s.elapse dt).roundEndTo fun _ t => t.demotes slot)

/-- PEER_LOST. -/
def execPeerLost (dt : Elapsed) (slot : Fin 32) (s : State) : Host.Outcome State Fault Refusal :=
  .next ((s.elapse dt).roundEndTo fun _ t => t.loses slot)

/-- DELAY_ESTIMATE_EXPIRED. -/
def execDelayEstimateExpired (dt : Elapsed) (slot : Fin 32) (s : State) : Host.Outcome State Fault Refusal :=
  .next ((s.elapse dt).roundEndTo fun _ t => t.expires slot)

/-- FOUNDING_TIMEOUT. -/
def execFoundingTimeout (dt : Elapsed) (s : State) : Host.Outcome State Fault Refusal :=
  .next ((s.elapse dt).roundEndTo fun index t => t.foundingTimesOut index)

/-- JOINING_SILENCE_TIMEOUT. -/
def execJoiningSilenceTimeout (dt : Elapsed) (s : State) : Host.Outcome State Fault Refusal :=
  .next ((s.elapse dt).roundEndTo fun index t => t.joiningTimesOut index)

/-- LISTEN_TIMER_EXPIRY. -/
def execListenTimerExpiry (dt : Elapsed) (s : State) : Host.Outcome State Fault Refusal :=
  .next ((s.elapse dt).roundEndTo fun _ t => t.listenExpires)

/-- QUORUM. -/
def execQuorum (dt : Elapsed) (s : State) : Host.Outcome State Fault Refusal :=
  .next ((s.elapse dt).roundEndTo fun index t => t.losesQuorum index)

/-- DISAGREE. -/
def execDisagree (dt : Elapsed) (s : State) : Host.Outcome State Fault Refusal :=
  .next ((s.elapse dt).roundEndTo fun index t => t.disagrees index)

/-- SETTLED. -/
def execSettled (dt : Elapsed) (s : State) : Host.Outcome State Fault Refusal :=
  .next ((s.elapse dt).roundEndTo fun index t => t.settles index)

end Sys2Proof.Machine
end

