-- ==== Sys2Proof/Machine/SourceEvents.lean ====
section
/-! DEFINITION. Events of the Source Unit (R24, R117 to R120, R123 to R125). -/

namespace Sys2Proof.Machine

/-- A supervisor window ends (R118 to R120): judgements, notices, failover, loss or recovery, and R125 in STANDBY. -/
def State.windowEnd (s : State) : State :=
  let t := (s.setSource s.source.windowEnd).raiseAll s.source.windowNotices
  t.failover.actOnLoss.actOnRecovery.standbyRuleHere

/-- The window timer has counted a window (R118). -/
def State.windowIsOver (s : State) : Bool := decide (windowRc ≤ s.source.windowTimer)

/-- SUPERVISOR_WINDOW_END. -/
def execSupervisorWindowEnd (dt : Elapsed) (s : State) : Host.Outcome State Fault Refusal :=
  let t := s.elapse dt
  .next (if t.windowIsOver then t.windowEnd else t)

/-- The lock count has reached 2,048 in a lock or relock (R117). -/
def State.lockReached (s : State) : Bool := s.source.locking && decide (lockCycles ≤ s.source.lockCount)

/-- The synthesizer enters LOCKED; in STARTING the report moves the station to LISTEN (R24, R117). -/
def State.lock (s : State) : State :=
  let t := s.completeLock
  if t.station.state = .starting then t.enterListen .locked else t

/-- SYNTHESIZER_LOCKED. -/
def execSynthesizerLocked (dt : Elapsed) (s : State) : Host.Outcome State Fault Refusal :=
  let t := s.elapse dt
  .next (if t.lockReached then t.lock else t)

/-- The lock time of STARTING has run out (R24). -/
def State.lockTimeOver (s : State) : Bool :=
  match s.station.lockTime with
  | some t => decide (s.station.state = .starting) && decide (lockTimeRc ≤ t)
  | none => false

/-- LOCK_FAILED with the source the lock was on, and STANDBY with cause NO_LOCK (R24; log 39). -/
def State.failStart (s : State) : State :=
  (s.raise (.lockFailed (s.source.lockSource.getD s.source.selected))).enterStandby .noLock

/-- NO_LOCK. -/
def execNoLock (dt : Elapsed) (s : State) : Host.Outcome State Fault Refusal :=
  let t := s.elapse dt
  .next (if t.lockTimeOver then t.failStart else t)

/-- The unit lock timer has reached 10 ms in a lock or relock: the source of that lock (R123). -/
def State.timedOut (s : State) : Option Source :=
  match s.source.unitTimer with
  | some t => if s.source.locking && decide (lockTimeRc ≤ t) then s.source.lockSource else none
  | none => none

/-- Stage 1 of R123: the lock source marked UNHEALTHY, SOURCE_FAILED unless it was so already. -/
def State.markFailed (x : Source) (s : State) : State :=
  let t := s.setSource (s.source.put x (s.source.get x).failLock)
  if (s.source.get x).health = .unhealthy then t else t.raise (.sourceFailed x .lock (t.source.failAction x))

/-- Stage 3 of R123: STALLED in any state but STANDBY, where a valid clock is lost. -/
def State.reportTimeout (s : State) : State := if s.station.state = .standby then s.loseClock else s.enterStalled

/-- A lock has timed out on source `x` (R123, stages 1 to 4). -/
def State.lockTimeout (x : Source) (s : State) : State :=
  ((s.markFailed x).stopSynth.reportTimeout).failover.actOnRecovery.standbyRuleHere

/-- LOCK_TIMEOUT. -/
def execLockTimeout (dt : Elapsed) (s : State) : Host.Outcome State Fault Refusal :=
  let t := s.elapse dt
  .next (match t.timedOut with
    | some x => t.lockTimeout x
    | none => t)

end Sys2Proof.Machine
end

