-- ==== Sys2Proof/Machine/Dispatch.lean ====
section
/-! DEFINITION. The meaning of every command: one arm for each row of spec/opcode_table.json. -/

namespace Sys2Proof.Machine

/-- What a command does to everything but the queue. -/
def exec (i : Instr) (s : State) : Host.Outcome State Fault Refusal :=
  match i with
  | .configure dt params => Sys2Proof.Machine.execConfigure dt params s
  | .join dt params => Sys2Proof.Machine.execJoin dt params s
  | .withdraw dt params => Sys2Proof.Machine.execWithdraw dt params s
  | .reset dt params => Sys2Proof.Machine.execReset dt params s
  | .seedTime dt params => Sys2Proof.Machine.execSeedTime dt params s
  | .anchorLabel dt params => Sys2Proof.Machine.execAnchorLabel dt params s
  | .labelChange dt params => Sys2Proof.Machine.execLabelChange dt params s
  | .selectSource dt params => Sys2Proof.Machine.execSelectSource dt params s
  | .resync dt params => Sys2Proof.Machine.execResync dt params s
  | .enableNotices dt params => Sys2Proof.Machine.execEnableNotices dt params s
  | .nextNotice dt params => Sys2Proof.Machine.execNextNotice dt params s
  | .readStatus dt params => Sys2Proof.Machine.execReadStatus dt params s
  | .readPeer dt params => Sys2Proof.Machine.execReadPeer dt params s
  | .readGenerator dt params => Sys2Proof.Machine.execReadGenerator dt params s
  | .readTime dt params => Sys2Proof.Machine.execReadTime dt params s
  | .unknownCommand dt code params => Sys2Proof.Machine.execUnknownCommand dt code params s
  | .transactionAbandoned dt => Sys2Proof.Machine.execTransactionAbandoned dt s
  | .powerOnReset dt busy => Sys2Proof.Machine.execPowerOnReset dt busy s
  | .stationReset dt busy => Sys2Proof.Machine.execStationReset dt busy s
  | .frameReceived dt bytes since => Sys2Proof.Machine.execFrameReceived dt bytes since s
  | .beaconBuild dt => Sys2Proof.Machine.execBeaconBuild dt s
  | .frameStart dt => Sys2Proof.Machine.execFrameStart dt s
  | .beaconDeparture dt => Sys2Proof.Machine.execBeaconDeparture dt s
  | .withdrawn dt => Sys2Proof.Machine.execWithdrawn dt s
  | .ownWindowClose dt => Sys2Proof.Machine.execOwnWindowClose dt s
  | .collision dt => Sys2Proof.Machine.execCollision dt s
  | .roundEnd dt => Sys2Proof.Machine.execRoundEnd dt s
  | .peerAdmitted dt slot => Sys2Proof.Machine.execPeerAdmitted dt slot s
  | .peerExcluded dt slot => Sys2Proof.Machine.execPeerExcluded dt slot s
  | .peerDemoted dt slot => Sys2Proof.Machine.execPeerDemoted dt slot s
  | .peerLost dt slot => Sys2Proof.Machine.execPeerLost dt slot s
  | .delayEstimateExpired dt slot => Sys2Proof.Machine.execDelayEstimateExpired dt slot s
  | .foundingTimeout dt => Sys2Proof.Machine.execFoundingTimeout dt s
  | .joiningSilenceTimeout dt => Sys2Proof.Machine.execJoiningSilenceTimeout dt s
  | .listenTimerExpiry dt => Sys2Proof.Machine.execListenTimerExpiry dt s
  | .quorum dt => Sys2Proof.Machine.execQuorum dt s
  | .disagree dt => Sys2Proof.Machine.execDisagree dt s
  | .settled dt => Sys2Proof.Machine.execSettled dt s
  | .labelApplied dt => Sys2Proof.Machine.execLabelApplied dt s
  | .anchorPulse dt => Sys2Proof.Machine.execAnchorPulse dt s
  | .anchorSilence dt => Sys2Proof.Machine.execAnchorSilence dt s
  | .supervisorWindowEnd dt => Sys2Proof.Machine.execSupervisorWindowEnd dt s
  | .synthesizerLocked dt => Sys2Proof.Machine.execSynthesizerLocked dt s
  | .noLock dt => Sys2Proof.Machine.execNoLock dt s
  | .lockTimeout dt => Sys2Proof.Machine.execLockTimeout dt s
  | .generatorBoundary dt gen => Sys2Proof.Machine.execGeneratorBoundary dt gen s
  | .timecodeWordSent dt => Sys2Proof.Machine.execTimecodeWordSent dt s
  | .pinLowAgain dt gen => Sys2Proof.Machine.execPinLowAgain dt gen s
  | .slewSpent dt => Sys2Proof.Machine.execSlewSpent dt s

end Sys2Proof.Machine
end

