-- ==== Sys2Proof/Machine/Step.lean ====
section
/-! DEFINITION. A step takes the command at the front of the queue. -/

namespace Sys2Proof.Machine

/-- The state with another queue. -/
def State.withPending (s : State) (queue : List Instr) : State := { s with pending := queue }

/-- One step: the front command's effect on the state with the rest of the queue; on an empty queue the part idles
(log 1). -/
def step (s : State) : Host.Outcome State Fault Refusal :=
  match s.pending with
  | [] => .next s
  | c :: rest => exec c (s.withPending rest)

/-- The command that a word spells by the table's bits, put at the front of the queue; no row gives bits, so no word
spells one. -/
def State.withFetchWord (s : State) (nbits w : Nat) : State :=
  match Sys2Proof.decodeTableWord nbits w with
  | some c => s.withPending (c :: s.pending)
  | none => s

end Sys2Proof.Machine
end

