-- ==== Sys2Proof/Safety.lean ====
section
/-! DEFINITION. What the statements are stated in: the manual's conditions on every state of a running station, and its
tables of ranges, layouts and codes, each written out from the manual and apart from the model's own reading of it. -/

namespace Sys2Proof.Machine

/-- A notice has been raised between `s` and `t`, and the pending record of its kind shows it as the latest (R166): so
wherever its kind was enabled. -/
def Reports (s t : State) (n : Notice) : Prop :=
  s.notices.enables[n.kind] = true → (t.notices.records[n.kind]).map (·.detail) = some n

/-- The agreed clock, valid in `s`, is lost by `t` in STANDBY: every run ends, a RUNNING generator entering STOPPING and an
ARMED one OFF (R144); the anchor and a pending label change are cleared, and ANCHOR_CHANGED is raised with cause CLOCK if the
anchor was valid (R106, R114). -/
def LosesClock (s t : State) : Prop :=
  t.discipline.clock = none ∧
  (∀ i : Fin 4, let g := s.gens[i]
    (g.state = .running → t.gens[i] = { g with state := .stopping }) ∧
    (g.state = .armed → t.gens[i] = { g with state := .off, next := none, pinHighUntil := none }) ∧
    (g.state = .off ∨ g.state = .stopping → t.gens[i] = g)) ∧
  t.anchor = { s.anchor with offset := none, streak := 0, valid := false, silence := 0, change := none } ∧
  (s.anchor.valid = true → Reports s t (.anchorChanged false .clock))

/-- The rate adjustment and the holdover value lie within ±100,000 ppb, and the band is that of the rate (R95, R96). -/
def Discipline.RateOk (d : Discipline) : Prop :=
  d.rate.natAbs ≤ 100000 ∧ d.holdoverValue.natAbs ≤ 100000 ∧ d.band = bandOf d.rate

/-- The record pending in place `k` is of kind `k`, of a kind enabled, and its repeat count lies within 0 to 255 (R166,
R170). -/
def NoticeUnit.PlaceOk (u : NoticeUnit) (k : Fin 27) : Prop :=
  ∀ r, u.records[k] = some r → r.detail.kind = k ∧ u.enables[k] = true ∧ r.repeats ≤ 255

/-- Every place of the Notice Unit is in order. -/
def NoticeUnit.Ok (u : NoticeUnit) : Prop := ∀ k, u.PlaceOk k

/-- A source is DISABLED exactly when it is not enabled, and its runs lie in their ranges (R119). -/
def SourceRecord.Ok (r : SourceRecord) : Prop :=
  (r.health = .disabled ↔ r.enabled = false) ∧ r.good ≤ 16 ∧ r.bad ≤ 2

/-- The record enables its preferred source (R162, field 20). -/
def ConfigRecord.prefersEnabled (r : ConfigRecord) : Bool :=
  match r.preferred with
  | .xo => r.xoEnable
  | .ref => r.refEnable

/-- The Source Unit: each source in order; the selected source enabled (R120); the coasting flag set exactly in
RELOCKING (R117, R122); a lock source exactly where the synthesizer is not OFF, and then the selected one (R117, R121). -/
structure SourceUnit.Ok (u : SourceUnit) : Prop where
  xo : u.xo.Ok
  ref : u.ref.Ok
  selected : (u.get u.selected).enabled = true
  coasting : u.coasting = true ↔ u.synth = .relocking
  lockSource : u.lockSource = if u.synth = .off then none else some u.selected

/-- The Source Unit is in order, and its enables are those of a configuration whose preferred source is enabled (R128,
R130). -/
structure State.SourcesOk (s : State) : Prop where
  unit : s.source.Ok
  xoEnable : s.source.xo.enabled = s.config.xoEnable
  refEnable : s.source.ref.enabled = s.config.refEnable
  preferred : s.config.prefersEnabled = true

/-- The station state, the reception mode and the agreed clock go together: the mode is that of the state (R4); the
listen timer runs exactly in LISTEN and the lock time exactly in STARTING (R24, R25); a transmitting station has a valid
clock and a STALLED one has none (chapter 2); a valid anchor has an offset, and an anchor offset, a pending slew and a
pending label change each need a valid clock (R85, R106, R114); the reading lies in its range (R85); no round end stays
owed between commands (R3; log 7). -/
structure State.StationOk (s : State) : Prop where
  mode : s.link.mode = s.station.state.mode
  listenTimer : s.station.listenTimer.isSome = true ↔ s.station.state = .listen
  lockTime : s.station.lockTime.isSome = true ↔ s.station.state = .starting
  transmits : s.station.state.transmits = true → s.clockValid = true
  stalled : s.station.state = .stalled → s.clockValid = false
  anchorOffset : s.anchor.valid = true → s.anchor.offset.isSome = true
  anchorClock : s.anchor.offset.isSome = true → s.clockValid = true
  slewClock : s.discipline.slew.isSome = true → s.clockValid = true
  changeClock : s.anchor.change.isSome = true → s.clockValid = true
  range : ∀ c, s.discipline.clock = some c → c ≤ maxReading * unitsPerNs
  owed : s.link.owedRoundEnd = none

/-- A Peer Table entry other than SELF: a peer that is known, or was heard in the open round, has a tag; a COUNTED entry
has a delay estimate (R58); the estimate lies within 0 to 5,000 ns (R53), the streaks and the delay age in their ranges
(R55, R56). -/
structure PeerEntry.Ok (p : PeerEntry) : Prop where
  tag : p.state.occupied = true → p.tag.isSome = true
  heard : p.observation ≠ .none → p.tag.isSome = true
  counted : p.state = .counted → p.delay.isSome = true
  delay : ∀ d, p.delay = some d → d ≤ 5000
  delayAge : p.delayAge ≤ 256
  streaks : p.goodStreak ≤ 255 ∧ p.wildStreak ≤ 255 ∧ p.absentStreak ≤ 255

/-- The Peer Table: every entry in order, and SELF exactly at the configured slot, holding the own tag and nothing else
(R45). -/
structure State.PeersOk (s : State) : Prop where
  entries : ∀ i : Fin 32, (s.peers.entries[i]).Ok
  own : ∀ i : Fin 32, (s.peers.entries[i]).state = .self ↔ s.configured = true ∧ i = s.config.slot
  ownEntry : ∀ i : Fin 32, (s.peers.entries[i]).state = .self → s.peers.entries[i] = PeerEntry.own s.config.tag

/-- No two Peer Table entries hold the same station tag (R46). -/
def PeerTable.TagsDistinct (t : PeerTable) : Prop :=
  ∀ (i j : Fin 32) (n : Nat), (t.entries[i]).tag = some n → (t.entries[j]).tag = some n → i = j

/-- The contents of a beacon lie in the ranges of R6, and its echo list is as R7 has it: the beacon can be sent. -/
structure Beacon.Fits (b : Beacon) : Prop where
  tag : 1 ≤ b.tag ∧ b.tag ≤ 4294967295
  round : b.round < 2 ^ 48
  counted : b.counted ≤ 31
  labelOffset : -86400 ≤ b.labelOffset ∧ b.labelOffset ≤ 86400
  anchorOffset : ∀ x, b.anchorOffset = some x → -2147483648 ≤ x ∧ x ≤ 2147483647
  notice : ∀ n, b.notice = some n → (-86400 ≤ n.offset ∧ n.offset ≤ 86400) ∧ n.second < 2 ^ 48
  echoCount : b.echoes.length ≤ 8
  echoSlots : (b.echoes.map (·.slot)).Nodup
  notOwn : ∀ e ∈ b.echoes, e.slot ≠ b.slot
  echoLags : ∀ e ∈ b.echoes, -2147483648 ≤ e.lag ∧ e.lag ≤ 2147483647

/-! ### The configuration record at the port (R131, R149, R162, R178, R179) -/

/-- floor(P), the whole ns of a nominal period, of rate codes 1 to 12 (R131). -/
def periodsNs : List Nat :=
  [41708333, 41666666, 40000000, 33366666, 33333333, 20854166, 20833333, 20000000, 16683333, 16666666, 20833, 10416]

/-- The ranges of the six fields of generator `g`, by field index (R131, R162; log 30 for a kind beside a rate code that is
none). -/
def genRanges (bs : List Byte) (g : Nat) : List (Nat × Prop) :=
  let byte := fun k => natAt bs (41 + 9 * g + k) 1
  [ (22 + 6 * g, byte 0 = 0 ∨ byte 0 = 1),
    (23 + 6 * g, (byte 1 = 1 ∧ ¬(11 ≤ byte 2 ∧ byte 2 ≤ 12)) ∨ (byte 1 = 2 ∧ ¬(1 ≤ byte 2 ∧ byte 2 ≤ 10))),
    (24 + 6 * g, 1 ≤ byte 2 ∧ byte 2 ≤ 12),
    (25 + 6 * g, (byte 1 = 1 ∧ byte 3 = 0) ∨ (byte 1 = 2 ∧ 1 ≤ byte 3 ∧ byte 3 ≤ 10)),
    (26 + 6 * g, 1 ≤ byte 2 ∧ natAt bs (41 + 9 * g + 4) 4 < periodsNs.getD (byte 2 - 1) 0),
    (27 + 6 * g, byte 8 = 1 ∨ byte 8 = 2) ]

/-- The range of each field of a configuration record, by field index, in the order of R162, at the offsets of R179. -/
def configRanges (bs : List Byte) : List (Nat × Prop) :=
  [ (1, 1 ≤ natAt bs 0 4),
    (2, natAt bs 4 1 ≤ 31),
    (3, natAt bs 5 1 = 0 ∨ natAt bs 5 1 = 1),
    (4, 1 ≤ natAt bs 6 1 ∧ natAt bs 6 1 ≤ 31),
    (5, 1000 ≤ natAt bs 7 2 ∧ natAt bs 7 2 ≤ 50000),
    (6, 2 ≤ natAt bs 9 1 ∧ natAt bs 9 1 ≤ 16),
    (7, natAt bs 10 2 ≤ 1000),
    (8, 1000 ≤ natAt bs 12 4 ∧ natAt bs 12 4 ≤ 1000000),
    (9, natAt bs 12 4 ≤ natAt bs 16 4 ∧ natAt bs 16 4 ≤ 1000000000),
    (10, natAt bs 20 1 ≤ 31),
    (11, natAt bs 21 1 ≤ 255),
    (12, 1 ≤ natAt bs 22 1 ∧ natAt bs 22 1 ≤ 50),
    (13, natAt bs 23 1 = 0 ∨ natAt bs 23 1 = 1),
    (14, 1 ≤ natAt bs 24 1 ∧ natAt bs 24 1 ≤ 64),
    (15, 1000 ≤ natAt bs 25 4 ∧ natAt bs 25 4 ≤ 1000000000),
    (16, 1 ≤ natAt bs 29 4 ∧ natAt bs 29 4 ≤ 100000),
    (17, -86400 ≤ intAt bs 33 4 ∧ intAt bs 33 4 ≤ 86400),
    (18, natAt bs 37 1 = 0 ∨ natAt bs 37 1 = 1),
    (19, natAt bs 38 1 = 0 ∨ natAt bs 38 1 = 1),
    (20, (natAt bs 39 1 = 1 ∧ natAt bs 37 1 = 1) ∨ (natAt bs 39 1 = 2 ∧ natAt bs 38 1 = 1)),
    (21, natAt bs 40 1 = 0 ∨ natAt bs 40 1 = 1) ]
  ++ genRanges bs 0 ++ genRanges bs 1 ++ genRanges bs 2 ++ genRanges bs 3
  ++ [ (46, natAt bs 77 1 = 0 ∨ (natAt bs 77 1 ≤ 4 ∧ natAt bs (41 + 9 * (natAt bs 77 1 - 1) + 1) 1 = 1)),
       (47, natAt bs 78 4 < 2 ^ 27),
       (48, natAt bs 82 7 % 4 = 0) ]

/-- Every field lies in its range. -/
def ConfigFits (bs : List Byte) : Prop := ∀ f ∈ configRanges bs, f.2

/-- `i` is the index of the first field out of its range. -/
def ConfigFailsAt (bs : List Byte) (i : Nat) : Prop :=
  (∃ f ∈ configRanges bs, f.1 = i ∧ ¬f.2) ∧ ∀ f ∈ configRanges bs, f.1 < i → f.2

/-- The settings of a generator are those of the 9 bytes from offset `o` (R178, R179). -/
structure GenSettings.Of (g : GenSettings) (bs : List Byte) (o : Nat) : Prop where
  enable : g.enable = true ↔ natAt bs o 1 = 1
  kind : g.kind = if natAt bs (o + 1) 1 = 1 then .video else .audio
  rate : g.rate.code = natAt bs (o + 2) 1
  paired : (g.paired.map RateCode.code).getD 0 = natAt bs (o + 3) 1
  delay : g.delay = natAt bs (o + 4) 4
  onWithdraw : g.onWithdraw = if natAt bs (o + 8) 1 = 1 then .hold else .stop

/-- The record is that of 89 bytes, field by field at the offsets of R179. -/
structure ConfigRecord.Of (r : ConfigRecord) (bs : List Byte) : Prop where
  tag : r.tag = natAt bs 0 4
  slot : r.slot.val = natAt bs 4 1
  founding : r.founding = true ↔ natAt bs 5 1 = 1
  quorum : r.quorum = natAt bs 6 1
  window : r.window = natAt bs 7 2
  admission : r.admission = natAt bs 9 1
  deadBand : r.deadBand = natAt bs 10 2
  stepThreshold : r.stepThreshold = natAt bs 12 4
  maxStep : r.maxStep = natAt bs 16 4
  smoothing : r.smoothing = natAt bs 20 1
  restartRounds : r.restartRounds = natAt bs 21 1
  slewLimit : r.slewLimit = natAt bs 22 1
  anchorEnabled : r.anchorEnabled = true ↔ natAt bs 23 1 = 1
  steerLimit : r.steerLimit = natAt bs 24 1
  captureLimit : r.captureLimit = natAt bs 25 4
  agreementLimit : r.agreementLimit = natAt bs 29 4
  labelOffset : r.labelOffset = intAt bs 33 4
  xoEnable : r.xoEnable = true ↔ natAt bs 37 1 = 1
  refEnable : r.refEnable = true ↔ natAt bs 38 1 = 1
  preferred : r.preferred = if natAt bs 39 1 = 1 then .xo else .ref
  earlyActivation : r.earlyActivation = true ↔ natAt bs 40 1 = 1
  gens : ∀ g : Fin 4, (r.gens[g]).Of bs (41 + 9 * g.val)
  binding : (r.binding.map fun g => g.val + 1).getD 0 = natAt bs 77 1
  noticeEnables : ∀ k : Fin 27, r.noticeEnables[k] = (natAt bs 78 4).testBit k.val
  noticePriorities : ∀ k : Fin 27, (r.noticePriorities[k]).val = natAt bs 82 7 / 4 ^ (27 - k.val) % 4

/-! ### What snapshots and notice records show (R178, R180, R181; log 13) -/

/-- The unsigned field of `n` bytes at offset `o` shows `v`, where it can hold it. -/
def Shows (d : List Byte) (o n v : Nat) : Prop := v < 256 ^ n → natAt d o n = v

/-- The signed field of `n` bytes at offset `o` shows `x`, where it can hold it. -/
def ShowsInt (d : List Byte) (o n : Nat) (x : Int) : Prop := -(256 ^ n / 2 : Int) ≤ x → x < 256 ^ n / 2 → intAt d o n = x

/-- The 10 bytes at offset `o` show a time as seconds and ns, zeros where it is absent. -/
def ShowsTime (d : List Byte) (o : Nat) (t : Option Nat) : Prop :=
  Shows d o 6 (t.getD 0 / 1000000000) ∧ Shows d (o + 6) 4 (t.getD 0 % 1000000000)

/-- The 11 bytes at offset `o` show a pending label change: offset, effective second, origin 1 or 2; zeros for none. -/
def ShowsChange (d : List Byte) (o : Nat) (c : Option LabelChange) : Prop :=
  ShowsInt d o 4 ((c.map (·.offset)).getD 0) ∧ Shows d (o + 4) 6 ((c.map (·.second)).getD 0) ∧
  natAt d (o + 10) 1 = (c.map fun c => match c.origin with | .originated => 1 | .adopted _ => 2).getD 0

/-- The status snapshot of R180, byte by byte. -/
structure StatusShows (s : State) (d : List Byte) : Prop where
  state : natAt d 0 1 = s.station.state.code
  faultReason : natAt d 1 1 = s.station.faultReason.code
  flags : ∀ i : Fin 8, (natAt d 2 1).testBit i.val = ([s.configured, s.seeded, s.discipline.clock.isSome,
    s.agreement.estimate.isSome, s.anchor.valid, s.anchor.offset.isSome, s.anchor.change.isSome, s.source.coasting].getD i.val false)
  selected : natAt d 3 1 = s.source.selected.code
  round : Shows d 4 6 (s.reading.getD 0 / 8000000)
  time : ShowsTime d 10 s.reading
  heard : natAt d 20 1 = s.peers.number .heard
  counted : natAt d 21 1 = s.peers.number .counted
  estimate : ShowsInt d 22 8 (s.agreement.estimate.getD 0)
  spread : ShowsInt d 30 8 (s.agreement.spread.getD 0)
  shortRounds : Shows d 38 1 s.agreement.shortRounds
  disagreements : Shows d 39 1 s.agreement.disagreements
  rate : ShowsInt d 40 4 s.discipline.rate
  band : Shows d 44 1 s.discipline.band
  restart : Shows d 45 1 s.discipline.restart
  xo : natAt d 46 1 = s.source.xo.health.code
  ref : natAt d 47 1 = s.source.ref.health.code
  synth : natAt d 48 1 = s.source.synth.code
  anchorOffset : ShowsInt d 49 8 (s.anchor.offset.getD 0)
  labelOffset : ShowsInt d 57 4 s.anchor.labelOffset
  change : ShowsChange d 61 s.anchor.change
  gens : ∀ i : Fin 4, natAt d (72 + i.val) 1 = (s.gens[i]).state.code
  zero : natAt d 76 1 = 0

/-- The peer snapshot of R180, byte by byte. -/
structure PeerShows (slot : Fin 32) (p : PeerEntry) (d : List Byte) : Prop where
  slot : natAt d 0 1 = slot.val
  state : natAt d 1 1 = p.state.code
  presence : ∀ i : Fin 11, (natAt d 2 2).testBit i.val = ([p.tag.isSome, p.peerState.isSome, p.counted.isSome,
    p.deviation.isSome, p.resultDeviation.isSome, p.rawLag.isSome, p.delay.isSome, p.anchorOffset.isSome,
    p.labelOffset.isSome, p.notice.isSome, p.anchored].getD i.val false)
  tag : Shows d 4 4 (p.tag.getD 0)
  peerState : natAt d 8 1 = (p.peerState.map PeerState.code).getD 0
  counted : Shows d 9 1 (p.counted.getD 0)
  observation : natAt d 10 1 = p.observation.code
  deviation : ShowsInt d 11 8 (p.deviation.getD 0)
  resultObservation : natAt d 19 1 = p.resultObservation.code
  resultDeviation : ShowsInt d 20 8 (p.resultDeviation.getD 0)
  rawLag : ShowsInt d 28 8 (p.rawLag.getD 0)
  lagAge : p.state ≠ .self → natAt d 36 1 = match p.lagAge with | .zero => 0 | .one => 1 | .stale => 2
  delay : Shows d 37 2 (p.delay.getD 0)
  delayAge : Shows d 39 2 p.delayAge
  goodStreak : Shows d 41 1 p.goodStreak
  wildStreak : Shows d 42 1 p.wildStreak
  absentStreak : Shows d 43 1 p.absentStreak
  anchorOffset : ShowsInt d 44 4 (p.anchorOffset.getD 0)
  labelOffset : ShowsInt d 48 4 (p.labelOffset.getD 0)
  noticeOffset : ShowsInt d 52 4 ((p.notice.map (·.offset)).getD 0)
  noticeSecond : Shows d 56 6 ((p.notice.map (·.second)).getD 0)

/-- The generator snapshot of R180, byte by byte. -/
structure GeneratorShows (i : Fin 4) (g : Generator) (d : List Byte) : Prop where
  index : natAt d 0 1 = i.val
  flags : ∀ j : Fin 4, (natAt d 1 1).testBit j.val = ([g.latched.isSome, (g.latched.bind (·.word)).isSome,
    (g.latched.map (·.marker)).getD false, g.rephasePending].getD j.val false)
  stateThen : natAt d 2 1 = (g.latched.map (·.state.code)).getD 0
  state : natAt d 3 1 = g.state.code
  number : Shows d 4 8 ((g.latched.map (·.number)).getD 0)
  time : ShowsTime d 12 (g.latched.map (·.time))
  rephaseCount : Shows d 22 2 g.rephaseCount
  word : natAt d 24 4 = ((g.latched.bind (·.word)).map BitVec.toNat).getD 0

/-- The data of READ_TIME (R177); its other flag bits are 0 (log 52). -/
structure TimeShows (s : State) (d : List Byte) : Prop where
  present : natAt d 0 1 = if s.discipline.clock.isSome then 1 else 0
  time : ShowsTime d 1 s.reading
  rate : ShowsInt d 11 4 s.discipline.rate

/-- A yes or no (R178). -/
def yesNo (b : Bool) : Nat := if b then 1 else 0

/-- How many detail bytes a kind of notice has (R181). -/
def detailLengths : List Nat :=
  [1, 2, 3, 2, 1, 6, 9, 2, 10, 5, 5, 5, 5, 1, 9, 2, 4, 2, 10, 9, 8, 12, 10, 12, 9, 0, 0]

/-- The detail bytes of a notice, from byte 13 of its record (R181). -/
def DetailShows (d : List Byte) (n : Notice) : Prop :=
  match n with
  | .restarted powerOn => natAt d 13 1 = if powerOn then 1 else 2
  | .stateChanged st c => natAt d 13 1 = st.code ∧ natAt d 14 1 = c.code
  | .sourceFailed x c a => natAt d 13 1 = x.code ∧ natAt d 14 1 = (if c = .windows then 1 else 2) ∧
      natAt d 15 1 = if a = .switched then 1 else if a = .lost then 2 else 3
  | .sourceRestored x selected => natAt d 13 1 = x.code ∧ natAt d 14 1 = yesNo selected
  | .lockFailed x => natAt d 13 1 = x.code
  | .slotConflict slot tag => natAt d 13 1 = slot.val ∧
      natAt d 14 1 = (if tag.isSome then Cause.slotTaken.code else Cause.collision.code) ∧ Shows d 15 4 (tag.getD 0)
  | .stepped o a => natAt d 13 1 = (if o = .joining then 1 else if o = .estimate then 2 else 3) ∧ ShowsInt d 14 8 a
  | .merged others n => Shows d 13 1 others ∧ Shows d 14 1 n
  | .rephased i skipped newRun => natAt d 13 1 = i.val ∧ natAt d 14 1 = yesNo newRun ∧ ShowsInt d 15 8 skipped
  | .peerAdmitted slot tag | .peerExcluded slot tag | .peerLost slot tag | .peerLeft slot tag =>
      natAt d 13 1 = slot.val ∧ Shows d 14 4 tag
  | .tagClash slot => natAt d 13 1 = slot.val
  | .delayRange slot sample => natAt d 13 1 = slot.val ∧ ShowsInt d 14 8 sample
  | .rateBand band up => Shows d 13 1 band ∧ natAt d 14 1 = if up then 1 else 2
  | .rateLimit rate => ShowsInt d 13 4 rate
  | .anchorChanged valid c => natAt d 13 1 = yesNo valid ∧
      natAt d 14 1 = match c with | .streak => 1 | .tolerance => 2 | .silence => 3 | .clock => 4 | .configure => 5
  | .anchorUnlabelled t => ShowsTime d 13 (some t)
  | .anchorsSplit number difference => Shows d 13 1 number ∧ Shows d 14 8 difference
  | .anchorsFar figure => ShowsInt d 13 8 figure
  | .labelPending c => ShowsChange d 13 (some c) ∧
      natAt d 24 1 = match c.origin with | .originated => 0 | .adopted slot => slot.val
  | .labelApplied offset second => ShowsInt d 13 4 offset ∧ Shows d 17 6 second
  | .labelConflict number c => Shows d 13 1 number ∧ ShowsChange d 14 c
  | .timecodeHeld i count => natAt d 13 1 = i.val ∧ Shows d 14 8 count
  | .alone | .noSeed => True

/-- The notice record of R181, byte by byte; unused detail bytes are zero, and so are the other flag bits (log 52). -/
structure RecordShows (r : PendingRecord) (d : List Byte) : Prop where
  kind : natAt d 0 1 = r.detail.kind.val
  repeats : Shows d 1 1 r.repeats
  present : natAt d 2 1 = yesNo r.time.isSome
  time : ShowsTime d 3 r.time
  detail : DetailShows d r.detail
  rest : ∀ i, detailLengths.getD r.detail.kind.val 0 ≤ i → i < 12 → natAt d (13 + i) 1 = 0

/-- The codes of R178, each list in the order of its codes. -/
def CodesOfTheManual : Prop :=
  [StationState.standby, .starting, .listen, .founding, .joining, .agreed, .isolated, .withdrawing, .stalled].map
    StationState.code = [0, 1, 2, 3, 4, 5, 6, 7, 8] ∧
  [Cause.joined, .locked, .noLock, .expired, .integrated, .slotTaken, .yielded, .founded, .timeout, .collision, .settled,
    .quorum, .disagree, .merge, .regained, .withdraw, .withdrawn, .source, .recovered].map Cause.code =
      [1, 2, 3, 4, 5, 6, 7, 8, 9, 10, 11, 12, 13, 14, 15, 16, 17, 18, 19] ∧
  FaultReason.none.code = 0 ∧ FaultReason.reset.code = 20 ∧ (∀ c : Cause, (FaultReason.cause c).code = c.code) ∧
  [PeerState.founding, .joining, .agreed, .isolated, .withdrawing].map PeerState.code = [3, 4, 5, 6, 7] ∧
  [EntryState.vacant, .self, .heard, .counted, .excluded].map EntryState.code = [0, 1, 2, 3, 4] ∧
  [Observation.none, .good, .wild, .absent, .leaving].map Observation.code = [0, 1, 2, 3, 4] ∧
  [GenState.off, .armed, .running, .stopping].map GenState.code = [0, 1, 2, 3] ∧
  [Source.xo, .ref].map Source.code = [1, 2] ∧
  [Health.disabled, .learning, .healthy, .unhealthy].map Health.code = [0, 1, 2, 3] ∧
  [SynthState.off, .locking, .locked, .relocking].map SynthState.code = [0, 1, 2, 3] ∧
  [RateCode.film23, .film24, .v25, .v29, .v30, .v47, .v48, .v50, .v59, .v60, .a48k, .a96k].map RateCode.code =
    [1, 2, 3, 4, 5, 6, 7, 8, 9, 10, 11, 12]

/-! ### The timecode word (R110, R151, R157, R182) -/

/-- `w` is the word of boundary `n` at agreed instant `t`: the number of the count since the last label midnight, by the
label offset in force, packed as R182 has it. A number beyond 23 hours has no place in the word. -/
def State.WordOf (s : State) (set : GenSettings) (n t : Nat) (w : BitVec 32) : Prop :=
  ∀ (midnight : Int) (first : Nat),
    let offset := match s.anchor.change with
      | some c => if c.second * 1000000000 ≤ t then c.offset else s.anchor.labelOffset
      | none => s.anchor.labelOffset
    (86400000000000 ∣ midnight + offset * 1000000000) → midnight ≤ t → (t : Int) < midnight + 86400000000000 →
    midnight ≤ set.boundaryTime first → (∀ k < first, (set.boundaryTime k : Int) < midnight) →
    set.rate.kind = .video →
    let x := set.rate.number (n - first)
    x.hours < 24 →
      w.extractLsb' 30 2 = BitVec.ofNat 2 (x.hours / 10) ∧ w.extractLsb' 26 4 = BitVec.ofNat 4 (x.hours % 10) ∧
      w.extractLsb' 23 3 = BitVec.ofNat 3 (x.minutes / 10) ∧ w.extractLsb' 19 4 = BitVec.ofNat 4 (x.minutes % 10) ∧
      w.extractLsb' 16 3 = BitVec.ofNat 3 (x.seconds / 10) ∧ w.extractLsb' 12 4 = BitVec.ofNat 4 (x.seconds % 10) ∧
      w.extractLsb' 9 3 = BitVec.ofNat 3 (x.frames / 10) ∧ w.extractLsb' 5 4 = BitVec.ofNat 4 (x.frames % 10) ∧
      w.getLsbD 4 = x.drop ∧ w.getLsbD 3 = x.hold ∧
      w.extractLsb' 0 3 = match set.rate with
        | .film23 | .v29 => 0
        | .film24 | .v59 => 1
        | .v25 => 2
        | .v30 => 3
        | .v47 => 4
        | .v48 => 5
        | .v50 => 6
        | .v60 | .a48k | .a96k => 7

/-- The line sends `w` from synthesizer time `start` on: bit 31 first, 250 ns each, and low after 8,000 ns. -/
def Timecode.Sends (c : Timecode) (w : BitVec 32) (start : Nat) : Prop :=
  (∀ j x, j < 32 → 500 * j ≤ x → x < 500 * (j + 1) → c.level (start + x) = w.getLsbD (31 - j)) ∧
  (∀ x, 16000 ≤ x → c.level (start + x) = false)

end Sys2Proof.Machine
end

