-- ==== Sys2Proof/Certificates/Slice0/Obligations.lean ====
section
/-! DEFINITION. The statements for the provers: what each command does, by the numbered rules of the manual, and what
every step keeps. A command's own effect is stated on the state as the elapsed time has left it: `s.elapse dt` for an
event, `s.request dt` for a host command (log 1, log 15). -/

section
open Sys2Proof Sys2Proof.Machine

/-! ### The step -/

/-- A step runs the command at the front of the queue on the state with the rest of the queue; the empty queue idles
(the queue is the model's own, log 1). -/
def Obligations.FrontCommandRuns : Prop :=
  (∀ (c : Instr) (rest : List Instr) (s : State), s.pending = c :: rest → step s = exec c (s.withPending rest)) ∧
  (∀ s : State, s.pending = [] → step s = .next s)

/-- Every command answers a next state, whatever the state, and leaves the queue as it is. -/
def Obligations.EveryCommandAnswersNext : Prop :=
  ∀ (c : Instr) (s : State), ∃ t, exec c s = .next t ∧ t.pending = s.pending

/-! ### Resets -/

/-- POWER_ON_RESET leaves every block at its power-on value: the tables of R20, R43, R65, R84, R102, R116, R130, R148,
R158, R171 and R172. -/
def Obligations.PowerOnResetValues : Prop :=
  ∀ (dt : Elapsed) (busy : Bool) (s : State), ∃ t, exec (.powerOnReset dt busy) s = .next t ∧ t.pending = s.pending ∧
    (t.link.mode = .off ∧ t.link.transmitter = none ∧ t.link.lastRoundEnd = none ∧ t.link.listenRound = none ∧
      t.link.arrivals = Vector.replicate 32 false ∧ t.link.echoPointer = 0 ∧ t.link.built = none ∧
      t.link.readBack = ⟨false, false, false, false⟩ ∧ t.link.collisions = 0) ∧
    t.peers = ⟨Vector.replicate 32 PeerEntry.empty, 0⟩ ∧
    t.agreement = ⟨none, none, 0, 0⟩ ∧
    t.discipline = ⟨none, 0, 0, none, 0, false, false, 0, false⟩ ∧
    t.station = ⟨.standby, .none, none, 0, false, none, 0, 0, 0, 0, none⟩ ∧
    t.anchor = ⟨none, none, 0, false, 0, 0, none, none⟩ ∧
    (t.source.xo = ⟨true, .learning, 0, 0, 0, true⟩ ∧ t.source.ref = ⟨false, .disabled, 0, 0, 0, false⟩ ∧
      t.source.windowTimer = 0 ∧ t.source.selected = .xo ∧ t.source.synth = .off ∧ t.source.lockSource = none ∧
      t.source.lockCount = 0 ∧ t.source.unitTimer = none ∧ t.source.coasting = false) ∧
    (∀ i : Fin 4, t.gens[i] = ⟨.off, none, none, none, false, 0, none, none, none⟩) ∧
    t.timecode = ⟨none, none, false, none⟩ ∧
    (t.notices.records[0] = some ⟨0, none, .restarted true⟩ ∧ (∀ k : Fin 27, k ≠ 0 → t.notices.records[k] = none) ∧
      (∀ k : Fin 27, t.notices.enables[k] = true ∧ t.notices.priorities[k] = 3)) ∧
    (t.port.record = none ∧ t.port.filling = busy)

/-- STATION_RESET leaves every block at its station-reset value (the tables of R20, R43, R65, R84, R102, R116, R130, R148,
R158, R171 and R172, second column): the configuration and the holdover record are kept, RESTARTED is raised with detail
STATION, the selected source is the preferred one and then what the failover rule makes of it, and early activation
begins a lock on it unless it is UNHEALTHY. The model's choices in it: a source whose enable changes starts as at CONFIGURE
(log 42), the echo pointer of an unconfigured station is 0 (log 45), its configuration the blank record (log 14), and no
reset of an abandoned RESET follows (log 47). -/
def Obligations.StationResetValues : Prop :=
  ∀ (dt : Elapsed) (busy : Bool) (s : State), ∃ t, let u := s.elapse dt
    let enabled := fun (on : Bool) (r : SourceRecord) => if r.enabled = on then r
      else if on then ⟨true, .learning, 0, 0, 0, false⟩ else ⟨false, .disabled, 0, 0, 0, false⟩
    let first := u.config.preferred
    let replaced := (t.source.get first).health = .unhealthy ∧ (t.source.get first.other).enabled = true ∧
      (t.source.get first.other).health = .healthy
    let unfit := (t.source.get t.source.selected).health = .unhealthy
    exec (.stationReset dt busy) s = .next t ∧ t.pending = s.pending ∧ t.synthTime = u.synthTime ∧
    (t.link.mode = .off ∧ t.link.transmitter = none ∧ t.link.lastRoundEnd = none ∧ t.link.listenRound = none ∧
      t.link.arrivals = Vector.replicate 32 false ∧ t.link.built = none ∧
      t.link.readBack = ⟨false, false, false, false⟩ ∧ t.link.collisions = 0) ∧
    (u.configured = true → t.link.echoPointer = u.config.slot + 1) ∧
    (u.configured = false → t.link.echoPointer = 0) ∧
    (∀ i : Fin 32, t.peers.entries[i] =
      if u.configured = true ∧ i = u.config.slot then PeerEntry.own u.config.tag else PeerEntry.empty) ∧
    t.peers.hold = 0 ∧
    t.agreement = ⟨none, none, 0, 0⟩ ∧
    (t.discipline.clock = none ∧ t.discipline.slew = none ∧ t.discipline.restart = 0 ∧
      t.discipline.joiningStepTaken = false ∧ t.discipline.coastMark = false ∧
      t.discipline.rate = (if u.discipline.holdoverValid then u.discipline.holdoverValue else 0) ∧
      t.discipline.band = bandOf t.discipline.rate ∧ t.discipline.holdoverValue = u.discipline.holdoverValue ∧
      t.discipline.holdoverValid = u.discipline.holdoverValid) ∧
    t.station = ⟨.standby, .reset, none, 0, false, none, 0, 0, 0, 0, none⟩ ∧
    t.anchor = ⟨none, none, 0, false, 0, u.config.labelOffset, none, none⟩ ∧
    (t.source.windowTimer = u.source.windowTimer ∧ t.source.coasting = false ∧
      t.source.xo = enabled u.config.xoEnable u.source.xo ∧ t.source.ref = enabled u.config.refEnable u.source.ref ∧
      (replaced → t.source.selected = first.other) ∧ (¬replaced → t.source.selected = first) ∧
      (u.config.earlyActivation = false ∨ unfit →
        t.source.synth = .off ∧ t.source.lockSource = none ∧ t.source.lockCount = 0 ∧ t.source.unitTimer = none) ∧
      (u.config.earlyActivation = true → ¬unfit →
        t.source.synth = .locking ∧ t.source.lockSource = some t.source.selected ∧ t.source.lockCount = 0 ∧
        t.source.unitTimer = some 0)) ∧
    (∀ i : Fin 4, t.gens[i] = ⟨.off, none, none, none, false, 0, none, none, none⟩) ∧
    t.timecode = ⟨u.config.binding, none, false, none⟩ ∧
    (t.notices.enables = u.config.noticeEnables ∧ t.notices.priorities = u.config.noticePriorities ∧
      t.notices.records[0] = (if u.config.noticeEnables[0] then some ⟨0, none, .restarted false⟩ else none) ∧
      (∀ k : Fin 27, k ≠ 0 → t.notices.records[k] = none)) ∧
    (t.port.record = u.port.record ∧ t.port.filling = busy ∧ t.port.resetTaken = false)

/-! ### Host commands -/

/-- A refused command changes no state in any block, and its response carries no data (R160), for each of the fifteen
commands; a request whose code names no command is answered UNKNOWN_COMMAND and not acted on, and an abandoned request
has no effect on any block (R159). -/
def Obligations.RefusedCommandChangesNothing : Prop :=
  ∀ (dt : Elapsed) (s : State) (st : Status), let q := s.request dt
    (∀ ps : List Byte, q.refuseConfigure ps = some st → exec (.configure dt ps) s = .next (q.answer st [])) ∧
    (∀ ps : List Byte, q.refuseJoin ps = some st → exec (.join dt ps) s = .next (q.answer st [])) ∧
    (∀ ps : List Byte, q.refuseWithdraw ps = some st → exec (.withdraw dt ps) s = .next (q.answer st [])) ∧
    (∀ ps : List Byte, q.refuseSeed ps = some st → exec (.seedTime dt ps) s = .next (q.answer st [])) ∧
    (∀ ps : List Byte, q.refuseLabel ps = some st → exec (.anchorLabel dt ps) s = .next (q.answer st [])) ∧
    (∀ ps : List Byte, q.refuseChange ps = some st → exec (.labelChange dt ps) s = .next (q.answer st [])) ∧
    (∀ ps : List Byte, q.refuseSelect ps = some st → exec (.selectSource dt ps) s = .next (q.answer st [])) ∧
    (∀ ps : List Byte, q.refuseResync ps = some st → exec (.resync dt ps) s = .next (q.answer st [])) ∧
    (∀ ps : List Byte, refuseEnables ps = some st → exec (.enableNotices dt ps) s = .next (q.answer st [])) ∧
    (∀ ps : List Byte, refusePlace 32 ps = some st → exec (.readPeer dt ps) s = .next (q.answer st [])) ∧
    (∀ ps : List Byte, refusePlace 4 ps = some st → exec (.readGenerator dt ps) s = .next (q.answer st [])) ∧
    (∀ ps : List Byte, ps ≠ [] →
      exec (.reset dt ps) s = .next (q.answer (.refusedValue 0) []) ∧
      exec (.nextNotice dt ps) s = .next (q.answer (.refusedValue 0) []) ∧
      exec (.readStatus dt ps) s = .next (q.answer (.refusedValue 0) []) ∧
      exec (.readTime dt ps) s = .next (q.answer (.refusedValue 0) [])) ∧
    (∀ (code : Byte) (ps : List Byte), exec (.unknownCommand dt code ps) s =
      .next (q.setPort { q.port with response := [0x05#8, 0x00#8, 0x00#8, 0x00#8] })) ∧
    exec (.transactionAbandoned dt) s = .next (q.setPort { q.port with response := [] })

/-- The checks of a request come in the order of R160, for every command: the code names the command (R177), then a length
other than the command's is REFUSED_VALUE with index 0, then a station state that R161 does not accept REFUSED_STATE, then
the first parameter out of its range REFUSED_VALUE with its index (R162, R177; log 30 for a kind beside a rate code that is
none), and for CONFIGURE then REFUSED_SOURCE (R128). The responses are those of R177. The particular checks of LABEL_CHANGE
and SELECT_SOURCE are stated with these commands. -/
def Obligations.ChecksComeInOrder : Prop :=
  (∀ (dt : Elapsed) (code high low : Byte) (ps more : List Byte) (c : Elapsed → List Byte → Instr),
    high.toNat * 256 + low.toNat = ps.length →
    ((code.toNat, c) ∈ [(0x01, Instr.configure), (0x02, .join), (0x03, .withdraw), (0x04, .reset), (0x05, .seedTime),
        (0x06, .anchorLabel), (0x07, .labelChange), (0x08, .selectSource), (0x09, .resync), (0x0A, .enableNotices),
        (0x0B, .nextNotice), (0x0C, .readStatus), (0x0D, .readPeer), (0x0E, .readGenerator), (0x0F, .readTime)] →
      requestInstr dt (code :: high :: low :: (ps ++ more)) = c dt ps) ∧
    (code.toNat = 0 ∨ 15 < code.toNat →
      requestInstr dt (code :: high :: low :: (ps ++ more)) = .unknownCommand dt code ps) ∧
    (∀ n, n < ps.length → requestInstr dt (code :: high :: low :: ps.take n) = .transactionAbandoned dt)) ∧
  (∀ (dt : Elapsed) (bytes : List Byte), bytes.length < 3 → requestInstr dt bytes = .transactionAbandoned dt) ∧
  (∀ q : State, (q.answer .ok []).port.response = [0x00#8, 0x00#8, 0x00#8, 0x00#8] ∧
    (q.answer .refusedState []).port.response = [0x01#8, 0x00#8, 0x00#8, 0x00#8] ∧
    (∀ i < 256, (q.answer (.refusedValue i) []).port.response = [0x02#8, BitVec.ofNat 8 i, 0x00#8, 0x00#8]) ∧
    (q.answer .refusedSource []).port.response = [0x03#8, 0x00#8, 0x00#8, 0x00#8] ∧
    (q.answer .refusedPending []).port.response = [0x04#8, 0x00#8, 0x00#8, 0x00#8] ∧
    (q.answer .unknownCommand []).port.response = [0x05#8, 0x00#8, 0x00#8, 0x00#8]) ∧
  ∀ (dt : Elapsed) (s : State) (ps : List Byte), let q := s.request dt
    let anchored := q.configured = true ∧ q.config.anchorEnabled = true
    (∀ (c : Elapsed → List Byte → Instr) (n : Nat), (c, n) ∈ [(Instr.configure, 89), (.join, 0), (.withdraw, 0), (.reset, 0),
        (.seedTime, 10), (.anchorLabel, 6), (.labelChange, 10), (.selectSource, 1), (.resync, 0), (.enableNotices, 8),
        (.nextNotice, 0), (.readStatus, 0), (.readPeer, 1), (.readGenerator, 1), (.readTime, 0)] →
      ps.length ≠ n → exec (c dt ps) s = .next (q.answer (.refusedValue 0) [])) ∧
    (∀ (c : Elapsed → List Byte → Instr) (n : Nat) (accepted : Prop), (c, n, accepted) ∈ [
        (Instr.configure, 89, q.station.state = .standby),
        (.join, 0, q.station.state = .standby ∧ q.configured = true),
        (.withdraw, 0, q.station.state ≠ .standby ∧ q.station.state ≠ .withdrawing),
        (.seedTime, 10, q.station.state = .standby ∨ q.station.state = .starting ∨ q.station.state = .listen),
        (.anchorLabel, 6, anchored),
        (.labelChange, 10, q.station.state = .agreed ∧ anchored),
        (.resync, 0, q.station.state = .joining ∨ q.station.state = .agreed ∨ q.station.state = .isolated)] →
      ps.length = n → ¬accepted → exec (c dt ps) s = .next (q.answer .refusedState [])) ∧
    (ps.length = 89 → q.station.state = .standby →
      (∀ i, ConfigFailsAt ps i → exec (.configure dt ps) s = .next (q.answer (.refusedValue i) [])) ∧
      (∀ x : Source, ConfigFits ps → q.source.synth ≠ .off → q.source.lockSource = some x →
        natAt ps (match x with | .xo => 37 | .ref => 38) 1 = 0 →
        exec (.configure dt ps) s = .next (q.answer .refusedSource []))) ∧
    (ps.length = 10 → q.station.state = .standby ∨ q.station.state = .starting ∨ q.station.state = .listen →
      1000000000 ≤ natAt ps 6 4 → exec (.seedTime dt ps) s = .next (q.answer (.refusedValue 2) [])) ∧
    (ps.length = 10 → q.station.state = .agreed → anchored → intAt ps 0 4 < -86400 ∨ 86400 < intAt ps 0 4 →
      exec (.labelChange dt ps) s = .next (q.answer (.refusedValue 1) [])) ∧
    (ps.length = 1 →
      (natAt ps 0 1 ≠ 1 → natAt ps 0 1 ≠ 2 → exec (.selectSource dt ps) s = .next (q.answer (.refusedValue 1) [])) ∧
      (32 ≤ natAt ps 0 1 → exec (.readPeer dt ps) s = .next (q.answer (.refusedValue 1) [])) ∧
      (4 ≤ natAt ps 0 1 → exec (.readGenerator dt ps) s = .next (q.answer (.refusedValue 1) []))) ∧
    (ps.length = 8 →
      (2 ^ 27 ≤ natAt ps 0 4 → exec (.enableNotices dt ps) s = .next (q.answer (.refusedValue 1) [])) ∧
      (natAt ps 0 4 < 2 ^ 27 → 2 ^ 27 ≤ natAt ps 4 4 →
        exec (.enableNotices dt ps) s = .next (q.answer (.refusedValue 2) [])))

/-- CONFIGURE in STANDBY, with every field in its range (R162) and no lock on a source that it disables (R128), is taken
as one event at every block (R163): the record is stored as R179 lays it out; Peer Table, counts, slew, label, binding and
notices are as the table says; the selected source is the preferred one and then what the failover rule makes of it, and a
lock begins, goes on or stops as R121, R122 and R125 have it: a synthesizer locked or locking on the source then selected
runs on as it stands, a lock or relock on another starts again, and a lock so started is timed again (log 48); an ARMED
generator goes OFF and a RUNNING one STOPPING, its schedule kept (R145). Station state, fault reason, seed and rate
adjustment are kept, and the agreed clock, unless the selected source is then UNHEALTHY: that source loss and the order of
the blocks are the model's reading (log 26). -/
def Obligations.ConfigureTaken : Prop :=
  ∀ (dt : Elapsed) (ps : List Byte) (s : State), let q := s.request dt
    ps.length = 89 → q.station.state = .standby → ConfigFits ps →
    (q.source.synth = .off ∨ q.source.lockSource = none ∨
      ∃ x : Source, q.source.lockSource = some x ∧ natAt ps (match x with | .xo => 37 | .ref => 38) 1 = 1) →
    ∃ t r, exec (.configure dt ps) s = .next t ∧ t.port.response = [0x00#8, 0x00#8, 0x00#8, 0x00#8] ∧
      t.port.record = some r ∧ r.Of ps ∧
      t.link = { q.link with
        echoPointer := r.slot + 1, lastRoundEnd := none, built := t.link.built, transmitter := t.link.transmitter
        buildOpen := t.link.buildOpen, followed := t.link.followed, owedRoundEnd := t.link.owedRoundEnd
        recentSteps := t.link.recentSteps, furthest := t.link.furthest } ∧
      (∀ i : Fin 32, t.peers.entries[i] = if i = r.slot then PeerEntry.own r.tag else PeerEntry.empty) ∧
      t.peers.hold = 0 ∧ t.agreement = ⟨none, none, 0, 0⟩ ∧
      (let lost := (t.source.get t.source.selected).health = .unhealthy
       (lost → t.discipline.clock = none) ∧ (¬lost → t.discipline.clock = q.discipline.clock)) ∧
      (t.discipline.restart = 0 ∧ t.discipline.slew = none ∧ t.discipline.joiningStepTaken = false ∧
        t.discipline.rate = q.discipline.rate ∧ t.discipline.band = q.discipline.band ∧
        t.discipline.holdoverValue = q.discipline.holdoverValue ∧
        t.discipline.holdoverValid = q.discipline.holdoverValid ∧
        (q.source.synth ≠ .locked ∨ q.source.lockSource = some t.source.selected → t.discipline.coastMark = false)) ∧
      (t.anchor.labelOffset = r.labelOffset ∧ t.anchor.change = none ∧ t.anchor.label = none ∧
        t.anchor.offset = none ∧ t.anchor.streak = 0 ∧ t.anchor.silence = 0 ∧ t.anchor.valid = false) ∧
      (let enabled := fun (on : Bool) (x : SourceRecord) => if x.enabled = on then x
         else if on then ⟨true, .learning, 0, 0, 0, false⟩ else ⟨false, .disabled, 0, 0, 0, false⟩
       let first := r.preferred
       let replaced := (t.source.get first).health = .unhealthy ∧ (t.source.get first.other).enabled = true ∧
         (t.source.get first.other).health = .healthy
       t.source.xo = enabled r.xoEnable q.source.xo ∧ t.source.ref = enabled r.refEnable q.source.ref ∧
       (replaced → t.source.selected = first.other) ∧ (¬replaced → t.source.selected = first) ∧
       t.source.windowTimer = q.source.windowTimer) ∧
      (let runs := r.earlyActivation = true ∨ q.discipline.clock.isSome = true
       let fit := (t.source.get t.source.selected).health ≠ .unhealthy
       (¬runs ∨ ¬fit → t.source.synth = .off ∧ t.source.lockSource = none ∧ t.source.unitTimer = none ∧
         t.source.coasting = false) ∧
       (runs → fit → q.source.synth = .off →
         t.source.synth = .locking ∧ t.source.lockSource = some t.source.selected ∧ t.source.lockCount = 0 ∧
         t.source.unitTimer = some 0) ∧
       (runs → fit → q.source.lockSource = some t.source.selected → q.source.synth ≠ .off →
         t.source.synth = q.source.synth ∧ t.source.lockSource = some t.source.selected ∧
         t.source.lockCount = q.source.lockCount ∧ t.source.unitTimer = q.source.unitTimer ∧
         t.source.coasting = q.source.coasting) ∧
       (runs → fit → q.source.lockSource ≠ some t.source.selected → q.source.synth = .locking →
         t.source.synth = .locking ∧ t.source.lockSource = some t.source.selected ∧ t.source.lockCount = 0 ∧
         t.source.unitTimer = q.source.unitTimer.map (fun _ => 0) ∧ t.source.coasting = q.source.coasting) ∧
       (runs → fit → q.source.lockSource ≠ some t.source.selected → q.source.synth = .relocking →
         t.source.synth = .relocking ∧ t.source.lockSource = some t.source.selected ∧ t.source.lockCount = 0 ∧
         t.source.unitTimer = some 0 ∧ t.source.coasting = q.source.coasting) ∧
       (runs → fit → q.source.lockSource ≠ some t.source.selected → q.source.synth = .locked →
         t.source.synth = .relocking ∧ t.source.lockSource = some t.source.selected ∧ t.source.lockCount = 0 ∧
         t.source.unitTimer = some 0 ∧ t.source.coasting = true ∧ t.discipline.coastMark = true)) ∧
      (∀ i : Fin 4, let g := q.gens[i]
        ((g.state = .running ∨ g.state = .stopping) →
          t.gens[i] = { g with state := .stopping, rephasePending := false, rephaseCount := 0, latched := none }) ∧
        (g.state = .armed → t.gens[i] = { g with
          state := .off, next := none, pinHighUntil := none, rephasePending := false, rephaseCount := 0, latched := none }) ∧
        (g.state = .off → t.gens[i] = { g with rephasePending := false, rephaseCount := 0, latched := none })) ∧
      t.timecode = ⟨r.binding, none, false, q.timecode.output⟩ ∧
      (t.notices.enables = r.noticeEnables ∧ t.notices.priorities = r.noticePriorities ∧
        (∀ k : Fin 27, r.noticeEnables[k] = false → t.notices.records[k] = none) ∧
        (∀ k : Fin 27, r.noticeEnables[k] = true → k ≠ 17 ∨ q.anchor.valid = false →
          t.notices.records[k] = q.notices.records[k]) ∧
        (q.anchor.valid = true → q.notices.enables[(17 : Fin 27)] = true → r.noticeEnables[(17 : Fin 27)] = true →
          (t.notices.records[(17 : Fin 27)]).map (·.detail) = some (.anchorChanged false .configure))) ∧
      t.station = q.station ∧ t.synthTime = q.synthTime

/-- JOIN moves a configured station in STANDBY on at once (R23): to LISTEN where the synthesizer is LOCKED, else to
STARTING, from which a source loss that holds sends it on to STALLED (R120); anywhere else it is refused. In STARTING a lock
begins where the synthesizer is OFF; one in progress goes on, its unit lock timer stopped, and a relock goes on with its
timer (R124). The rate is loaded from a valid holdover record and the agreed clock is not changed (R101). -/
def Obligations.JoinMovesOn : Prop :=
  ∀ (dt : Elapsed) (s : State), let q := s.request dt
    (q.station.state = .standby → q.configured = true → q.source.synth = .locked →
      ∃ t, exec (.join dt []) s = .next t ∧ t.port.response = [0x00#8, 0x00#8, 0x00#8, 0x00#8] ∧
        t.station.state = .listen ∧ Reports q t (.stateChanged .listen .joined) ∧
        t.station.listenTimer = some (4 + q.config.slot.val + q.station.extraListen) ∧ t.station.extraListen = 0 ∧
        t.link.mode = .openMode ∧ t.discipline.clock = q.discipline.clock ∧
        t.discipline.rate = (if q.discipline.holdoverValid then q.discipline.holdoverValue else q.discipline.rate) ∧
        t.peers = q.peers ∧ t.agreement = q.agreement ∧ t.anchor = q.anchor ∧ t.source = q.source ∧
        t.gens = q.gens ∧ t.timecode = q.timecode ∧ t.synthTime = q.synthTime ∧ t.port.record = q.port.record) ∧
    (q.station.state = .standby → q.configured = true → q.source.synth ≠ .locked → q.source.lost = false →
      ∃ t, exec (.join dt []) s = .next t ∧ t.port.response = [0x00#8, 0x00#8, 0x00#8, 0x00#8] ∧
        t.station.state = .starting ∧ Reports q t (.stateChanged .starting .joined) ∧ t.station.lockTime = some 0 ∧
        t.link.mode = .off ∧ t.discipline.clock = q.discipline.clock ∧
        t.discipline.rate = (if q.discipline.holdoverValid then q.discipline.holdoverValue else q.discipline.rate) ∧
        (q.source.synth = .off → t.source = { q.source with
          synth := .locking, lockSource := some q.source.selected, lockCount := 0, unitTimer := none }) ∧
        (q.source.synth = .locking → t.source = { q.source with unitTimer := none }) ∧
        (q.source.synth = .relocking → t.source = q.source) ∧
        t.peers = q.peers ∧ t.agreement = q.agreement ∧ t.anchor = q.anchor ∧
        t.gens = q.gens ∧ t.timecode = q.timecode ∧ t.synthTime = q.synthTime ∧ t.port.record = q.port.record) ∧
    (q.station.state = .standby → q.configured = true → q.source.synth ≠ .locked → q.source.lost = true →
      ∃ t, exec (.join dt []) s = .next t ∧ t.station.state = .stalled ∧ t.station.faultReason = .cause .source) ∧
    (q.station.state ≠ .standby ∨ q.configured = false →
      exec (.join dt []) s = .next (q.answer .refusedState []))

/-- WITHDRAW is taken according to the station state (R38): a transmitting station enters WITHDRAWING and keeps its
clock, peers and generators; STARTING, LISTEN and STALLED go to STANDBY at once; STANDBY and WITHDRAWING refuse it. A lock in
progress is abandoned, and with a relock a valid clock is lost (R85, R124), which ends every run and clears the anchor (R144,
R106); then R125 decides: without early activation and a valid clock the synthesizer stops, else it runs on, or a lock begins
on a selected source that is not UNHEALTHY. That a relock of LISTEN is such a lock and loses the clock as one of STARTING does
(log 53), and that the lock count of a stopped lock is kept (log 51), are the model's. -/
def Obligations.WithdrawByState : Prop :=
  ∀ (dt : Elapsed) (s : State), let q := s.request dt
    (q.station.state = .founding ∨ q.station.state = .joining ∨ q.station.state = .agreed ∨
        q.station.state = .isolated →
      ∃ t, exec (.withdraw dt []) s = .next t ∧ t.port.response = [0x00#8, 0x00#8, 0x00#8, 0x00#8] ∧
        t.station.state = .withdrawing ∧ Reports q t (.stateChanged .withdrawing .withdraw) ∧
        t.station.withdrawCount = 0 ∧ t.link.mode = .windowed ∧ t.link.collisions = q.link.collisions ∧
        t.discipline = q.discipline ∧ t.peers = q.peers ∧ t.agreement = q.agreement ∧ t.anchor = q.anchor ∧
        t.source = q.source ∧ t.gens = q.gens ∧ t.timecode = q.timecode ∧ t.synthTime = q.synthTime ∧
        t.station.faultReason = q.station.faultReason ∧ t.station.seed = q.station.seed) ∧
    (q.station.state = .starting ∨ q.station.state = .listen ∨ q.station.state = .stalled →
      ∃ t, exec (.withdraw dt []) s = .next t ∧ t.port.response = [0x00#8, 0x00#8, 0x00#8, 0x00#8] ∧
        t.station.state = .standby ∧ Reports q t (.stateChanged .standby .withdrawn) ∧
        t.station.faultReason = .cause .withdrawn ∧ t.station.listenTimer = none ∧ t.station.lockTime = none ∧
        t.link.mode = .off ∧ t.peers = q.peers ∧ t.agreement = q.agreement ∧ t.timecode = q.timecode ∧
        t.discipline.rate = q.discipline.rate ∧ t.synthTime = q.synthTime ∧ t.station.seed = q.station.seed ∧
        (let abandoned := q.station.state = .starting ∨ q.source.synth = .locking ∨ q.source.synth = .relocking
         let kept := q.discipline.clock.isSome = true ∧ q.source.synth ≠ .relocking
         let fit := (q.source.get q.source.selected).health ≠ .unhealthy
         let off := { q.source with synth := .off, lockSource := none, unitTimer := none, coasting := false }
         (q.source.synth = .relocking → q.discipline.clock.isSome = true → LosesClock q t) ∧
         (q.source.synth ≠ .relocking → t.discipline = q.discipline ∧ t.anchor = q.anchor) ∧
         (q.config.earlyActivation = false → ¬kept → t.source = off) ∧
         (q.config.earlyActivation = true ∨ kept →
           (abandoned → fit → t.source = { off with
             synth := .locking, lockSource := some q.source.selected, lockCount := 0, unitTimer := some 0 }) ∧
           (abandoned → ¬fit → t.source = off) ∧
           (¬abandoned → q.source.synth = .off → fit → t.source = { q.source with
             synth := .locking, lockSource := some q.source.selected, lockCount := 0, unitTimer := some 0 }) ∧
           (¬abandoned → q.source.synth ≠ .off ∨ ¬fit → t.source = q.source)))) ∧
    (q.station.state = .standby ∨ q.station.state = .withdrawing →
      exec (.withdraw dt []) s = .next (q.answer .refusedState []))

/-- RESET is answered OK and changes nothing else while its transaction lasts (R164); at the next request the
transaction has ended, and the station reset has come first (log 15). -/
def Obligations.ResetComesWithTheEnd : Prop :=
  (∀ (dt : Elapsed) (s : State), ∃ t, exec (.reset dt []) s = .next t ∧
    t = (s.request dt).setPort { (s.request dt).port with
      response := [0x00#8, 0x00#8, 0x00#8, 0x00#8], resetTaken := true }) ∧
  (∀ (dt : Elapsed) (s : State), s.port.resetTaken = true →
    s.request dt = (let u := (s.stationReset false).elapse dt; u.setPort { u.port with filling := false })) ∧
  (∀ (dt : Elapsed) (s : State), s.port.resetTaken = false →
    s.request dt = (let u := s.elapse dt; u.setPort { u.port with filling := false }))

/-- SEED_TIME in STANDBY, STARTING or LISTEN stores the seed with elapsed time 0 in place of any other, and so sets the
seeded flag; nothing else changes (R27, R161). ANCHOR_LABEL on an anchored station stores the second in place of any
label pending, in every state (R104). RESYNC in JOINING, AGREED or ISOLATED sets the restart counter to the restart rounds
and nothing else, and is refused in every other state (R91, R101). -/
def Obligations.SeedLabelAndResyncTaken : Prop :=
  ∀ (dt : Elapsed) (s : State), let q := s.request dt
    (∀ ps : List Byte, ps.length = 10 → natAt ps 6 4 < 1000000000 →
      (q.station.state = .standby ∨ q.station.state = .starting ∨ q.station.state = .listen) →
      ∃ t, exec (.seedTime dt ps) s = .next t ∧ t.seeded = true ∧
        t = (q.setStation { q.station with seed := some ⟨natAt ps 0 6, natAt ps 6 4, 0⟩ }).setPort
          { q.port with response := [0x00#8, 0x00#8, 0x00#8, 0x00#8] }) ∧
    (∀ ps : List Byte, ps.length = 10 → 1000000000 ≤ natAt ps 6 4 →
      (q.station.state = .standby ∨ q.station.state = .starting ∨ q.station.state = .listen) →
      exec (.seedTime dt ps) s = .next (q.answer (.refusedValue 2) [])) ∧
    (∀ ps : List Byte, ps.length = 6 → q.configured = true → q.config.anchorEnabled = true →
      exec (.anchorLabel dt ps) s = .next ((q.setAnchor { q.anchor with label := some (natAt ps 0 6) }).setPort
        { q.port with response := [0x00#8, 0x00#8, 0x00#8, 0x00#8] })) ∧
    (∀ ps : List Byte, ps.length = 6 → (q.configured = false ∨ q.config.anchorEnabled = false) →
      exec (.anchorLabel dt ps) s = .next (q.answer .refusedState [])) ∧
    ((q.station.state = .joining ∨ q.station.state = .agreed ∨ q.station.state = .isolated) →
      exec (.resync dt []) s =
        .next ((q.setDiscipline { q.discipline with restart := q.config.restartRounds }).setPort
          { q.port with response := [0x00#8, 0x00#8, 0x00#8, 0x00#8] })) ∧
    (¬(q.station.state = .joining ∨ q.station.state = .agreed ∨ q.station.state = .isolated) →
      exec (.resync dt []) s = .next (q.answer .refusedState []))

/-- LABEL_CHANGE is tested in the order of R111 and, where every test passes, becomes the pending change with origin
ORIGINATED, and LABEL_PENDING is raised; nothing else changes. The statuses are those of R160 and R177; the field index 2
of an effective second that comes too soon is the model's reading (log 29). The label notices of the contributors are
examined as R112 and R113 have it: tails of a change applied are set aside, a single other one is adopted, from the lowest
slot that offers it, the pending change offered again changes nothing, and any other case is a conflict. An agreement
point in AGREED or ISOLATED examines them so (shown where it is a short round). -/
def Obligations.LabelChangeTested : Prop :=
  (∀ (dt : Elapsed) (ps : List Byte) (s : State), let q := s.request dt
    (ps.length = 10 → q.station.state ≠ .agreed ∨ q.config.anchorEnabled = false →
      exec (.labelChange dt ps) s = .next (q.answer .refusedState [])) ∧
    (ps.length = 10 → q.station.state = .agreed → q.config.anchorEnabled = true →
      (intAt ps 0 4 < -86400 ∨ 86400 < intAt ps 0 4 →
        exec (.labelChange dt ps) s = .next (q.answer (.refusedValue 1) [])) ∧
      (-86400 ≤ intAt ps 0 4 → intAt ps 0 4 ≤ 86400 → q.anchor.change.isSome = true →
        exec (.labelChange dt ps) s = .next (q.answer .refusedPending [])) ∧
      (∀ a, q.reading = some a → -86400 ≤ intAt ps 0 4 → intAt ps 0 4 ≤ 86400 → q.anchor.change = none →
        (natAt ps 4 6 < a / 1000000000 + 2 →
          exec (.labelChange dt ps) s = .next (q.answer (.refusedValue 2) [])) ∧
        (a / 1000000000 + 2 ≤ natAt ps 4 6 →
          ∃ t, exec (.labelChange dt ps) s = .next t ∧ t.port.response = [0x00#8, 0x00#8, 0x00#8, 0x00#8] ∧
            t.anchor = { q.anchor with change := some ⟨intAt ps 0 4, natAt ps 4 6, .originated⟩ } ∧
            Reports q t (.labelPending ⟨intAt ps 0 4, natAt ps 4 6, .originated⟩) ∧
            t.link = q.link ∧ t.peers = q.peers ∧ t.agreement = q.agreement ∧ t.discipline = q.discipline ∧
            t.station = q.station ∧ t.source = q.source ∧ t.gens = q.gens ∧ t.timecode = q.timecode)))) ∧
  (∀ (s : State) (a : Nat), let t := s.examineLabels s.contributors
    let offers := fun (i : Fin 32) (n : LabelNotice) => i ∈ s.contributors ∧ (s.peers.entries[i]).anchored = true ∧
      (s.peers.entries[i]).notice = some n ∧ ¬(n.second * 1000000000 ≤ a ∧ n.offset = s.anchor.labelOffset)
    s.reading = some a →
    ((∀ i n, ¬offers i n) → t = s) ∧
    (∀ i n, offers i n → (∀ j m, offers j m → m = n ∧ i ≤ j) →
      (s.anchor.change = none → let c : LabelChange := ⟨n.offset, n.second, .adopted i⟩
        Reports s t (.labelPending c) ∧ t = (s.setAnchor t.anchor).setNotices t.notices ∧
        (a < n.second * 1000000000 → t.anchor = { s.anchor with change := some c }) ∧
        (n.second * 1000000000 ≤ a →
          t.anchor = { s.anchor with labelOffset := n.offset, change := none, appliedAt := some s.synthTime } ∧
          Reports s t (.labelApplied n.offset n.second))) ∧
      (∀ c, s.anchor.change = some c →
        (c.offset = n.offset ∧ c.second = n.second → t = s) ∧
        (¬(c.offset = n.offset ∧ c.second = n.second) →
          t = (s.setAnchor { s.anchor with change := none }).raise (.labelConflict 1 (some c))))) ∧
    (∀ l : List LabelNotice, l.Nodup → (∀ n, n ∈ l ↔ ∃ i, offers i n) → 2 ≤ l.length →
      t = (s.setAnchor { s.anchor with change := none }).raise (.labelConflict l.length s.anchor.change)) ∧
    (s.station.state = .agreed ∨ s.station.state = .isolated → s.contributors.length < s.config.quorum →
      s.agreementPoint.anchor = t.anchor))

/-- SELECT_SOURCE is tested in the order of R127: a byte that names no source, the selected source, a source not
enabled or not HEALTHY, and otherwise the selection moves and a LOCKED synthesizer relocks on it, coasting (R121, R122,
R98). A lock that the unit lock timer times is timed again from its restart (R121, R123 as log 48 reads them). -/
def Obligations.SelectSourceTested : Prop :=
  ∀ (dt : Elapsed) (s : State) (b : Byte), let q := s.request dt
    (parseSource b.toNat = none → exec (.selectSource dt [b]) s = .next (q.answer (.refusedValue 1) [])) ∧
    (∀ x, parseSource b.toNat = some x → x = q.source.selected →
      exec (.selectSource dt [b]) s = .next (q.answer .ok [])) ∧
    (∀ x, parseSource b.toNat = some x → x ≠ q.source.selected →
      ((q.source.get x).enabled = false ∨ (q.source.get x).health ≠ .healthy) →
      exec (.selectSource dt [b]) s = .next (q.answer .refusedSource [])) ∧
    (∀ x, parseSource b.toNat = some x → x ≠ q.source.selected →
      (q.source.get x).enabled = true → (q.source.get x).health = .healthy →
      ∃ t, exec (.selectSource dt [b]) s = .next t ∧ t.port.response = [0x00#8, 0x00#8, 0x00#8, 0x00#8] ∧
        t.source.selected = x ∧
        (q.source.synth = .off → t.source = { q.source with selected := x } ∧ t.link = q.link) ∧
        (q.source.synth = .locking → q.source.lockSource ≠ some x →
          t.source = { q.source with
            selected := x, lockSource := some x, lockCount := 0, unitTimer := q.source.unitTimer.map fun _ => 0 } ∧
          t.link = q.link ∧
          t.discipline = q.discipline) ∧
        (q.source.synth = .relocking → q.source.lockSource ≠ some x →
          t.source = { q.source with selected := x, lockSource := some x, lockCount := 0, unitTimer := some 0 } ∧
          t.link = q.link ∧ t.discipline = q.discipline) ∧
        (q.source.synth = .locked → q.source.lockSource ≠ some x →
          t.source = { q.source with
            selected := x, synth := .relocking, lockSource := some x, lockCount := 0, unitTimer := some 0,
            coasting := true } ∧
          t.discipline = { q.discipline with coastMark := true } ∧
          t.link = { q.link with built := none, transmitter := none, buildOpen := false }) ∧
        t.station = q.station ∧ t.peers = q.peers ∧ t.agreement = q.agreement ∧ t.anchor = q.anchor ∧
        t.gens = q.gens ∧ t.timecode = q.timecode ∧ t.notices = q.notices)

/-- ENABLE_NOTICES gives each masked kind its value and leaves the others, clears the record of every kind that is then
disabled, and changes nothing else (R170). -/
def Obligations.EnablesTakeMaskedValues : Prop :=
  ∀ (dt : Elapsed) (ps : List Byte) (s : State), let q := s.request dt
    ps.length = 8 → natAt ps 0 4 < 2 ^ 27 → natAt ps 4 4 < 2 ^ 27 →
    ∃ t, exec (.enableNotices dt ps) s = .next t ∧
      t = (q.setNotices t.notices).setPort { q.port with response := [0x00#8, 0x00#8, 0x00#8, 0x00#8] } ∧
      (∀ k : Fin 27,
        t.notices.enables[k] =
          (if (natAt ps 0 4).testBit k.val then (natAt ps 4 4).testBit k.val else q.notices.enables[k]) ∧
        t.notices.priorities[k] = q.notices.priorities[k] ∧
        t.notices.records[k] = (if t.notices.enables[k] then q.notices.records[k] else none))

/-- NEXT_NOTICE returns and clears the pending record of highest priority, the lowest index among equals, and changes
nothing else; with none pending it returns the single byte FFh (R168, R177). -/
def Obligations.NextNoticeTakesHighest : Prop :=
  ∀ (dt : Elapsed) (s : State), let q := s.request dt
    ((∀ k : Fin 27, q.notices.records[k] = none) →
      exec (.nextNotice dt []) s =
        .next (q.setPort { q.port with response := [0x00#8, 0x00#8, 0x00#8, 0x01#8, 0xFF#8] })) ∧
    (∀ (k : Fin 27) (r : PendingRecord), q.notices.records[k] = some r →
      (∀ (j : Fin 27), (q.notices.records[j]).isSome = true → j ≠ k →
        q.notices.priorities[k] < q.notices.priorities[j] ∨
          (q.notices.priorities[k] = q.notices.priorities[j] ∧ k < j)) →
      ∃ t, exec (.nextNotice dt []) s = .next t ∧
        t.port.response = [0x00#8, 0x00#8, 0x00#8, 0x19#8] ++ r.bytes ∧
        t.notices.records[k] = none ∧ (∀ j : Fin 27, j ≠ k → t.notices.records[j] = q.notices.records[j]) ∧
        t = (q.setNotices { q.notices with records := t.notices.records }).setPort
          { q.port with response := t.port.response })

/-- The snapshot commands answer OK with the snapshot of the state as it stands and change nothing else; READ_TIME latches
the time it returns (R63, R101, R146, R165). Snapshots and notice records have the lengths of R177: 77, 15, 62, 28 and 25
bytes, and hold the values of the state at the offsets of R177, R180 and R181, in the codes of R178, wherever a field can
hold its value (log 13). R180 sends absent items of the status snapshot as zeros; that the other snapshots, READ_TIME and
the notice records do so too is the model's reading (log 38), and so is that the flag bits of READ_TIME and of a notice
record that have no meaning are 0 (log 52). While a request is received and past its response the port sends the fill
value (R159, R177). -/
def Obligations.SnapshotsRead : Prop :=
  (∀ (dt : Elapsed) (s : State), let q := s.request dt
    exec (.readStatus dt []) s = .next (q.answer .ok q.statusSnapshot) ∧
    exec (.readTime dt []) s = .next ((q.latchTime).answer .ok q.timeData) ∧
    q.latchTime.port.latchedTime = q.reading ∧
    (∀ slot : Fin 32, exec (.readPeer dt [BitVec.ofNat 8 slot.val]) s =
      .next (q.answer .ok ((q.peers.entries[slot]).snapshot slot))) ∧
    (∀ i : Fin 4, exec (.readGenerator dt [BitVec.ofNat 8 i.val]) s = .next (q.answer .ok ((q.gens[i]).snapshot i))) ∧
    (∀ b : Byte, 32 ≤ b.toNat → exec (.readPeer dt [b]) s = .next (q.answer (.refusedValue 1) [])) ∧
    (∀ b : Byte, 4 ≤ b.toNat → exec (.readGenerator dt [b]) s = .next (q.answer (.refusedValue 1) [])) ∧
    q.statusSnapshot.length = 77 ∧ q.timeData.length = 15 ∧
    (∀ (slot : Fin 32) (p : PeerEntry), (p.snapshot slot).length = 62) ∧
    (∀ (i : Fin 4) (g : Generator), (g.snapshot i).length = 28) ∧
    (∀ r : PendingRecord, r.bytes.length = 25)) ∧
  CodesOfTheManual ∧
  (∀ s : State, StatusShows s s.statusSnapshot ∧ TimeShows s s.timeData) ∧
  (∀ (slot : Fin 32) (p : PeerEntry), PeerShows slot p (p.snapshot slot)) ∧
  (∀ (i : Fin 4) (g : Generator), GeneratorShows i g (g.snapshot i)) ∧
  (∀ r : PendingRecord, RecordShows r r.bytes) ∧
  (∀ (p : Port) (n i : Nat), (i < n → p.sends n i = 0xFF#8) ∧ (p.filling = true → p.sends n i = 0xFF#8) ∧
    (n + p.response.length ≤ i → p.sends n i = 0xFF#8) ∧
    (p.filling = false → i < p.response.length → p.response[i]? = some (p.sends n (n + i))))

/-- The notice line is asserted exactly while a record is pending (R169), and an occurrence of an enabled kind makes a
record with repeat count 0 and the agreed time, or merges into the record pending (R166). -/
def Obligations.OccurrencesMerge : Prop :=
  (∀ s : State, s.noticeLine = true ↔ ∃ k : Fin 27, (s.notices.records[k]).isSome = true) ∧
  (∀ (s : State) (n : Notice), let t := s.raise n
    (s.notices.enables[n.kind] = false → t = s) ∧
    (s.notices.enables[n.kind] = true → s.notices.records[n.kind] = none →
      t.notices.records[n.kind] = some ⟨0, s.reading, n⟩) ∧
    (∀ r, s.notices.enables[n.kind] = true → s.notices.records[n.kind] = some r →
      t.notices.records[n.kind] = some ⟨min 255 (r.repeats + 1), r.time, n⟩) ∧
    (∀ k : Fin 27, k ≠ n.kind → t.notices.records[k] = s.notices.records[k]) ∧
    t = s.setNotices { s.notices with records := t.notices.records })

/-! ### The timing line -/

/-- Frames that leave every block as it is (R4, R8, R9, R49): one whose timing mark came while coasting, or that ends
while reception is OFF; one that was being received when WITHDRAW in LISTEN turned reception OFF, though a JOIN reopened it
before the frame ended; a damaged frame in either mode; a misplaced one; a second good beacon of its slot in a round. What
was taken at a frame's timing mark is remembered by the model (log 4). -/
def Obligations.DiscardedFramesChangeNothing : Prop :=
  (∀ (dt : Elapsed) (bytes : List Byte) (since : Nat) (s : State), let u := s.elapse dt; let m := u.markAt since
    (m.coasting = true ∨ u.link.mode = .off → exec (.frameReceived dt bytes since) s = .next u) ∧
    (m.mode = .openMode → parseBeacon bytes = none → exec (.frameReceived dt bytes since) s = .next u) ∧
    (∀ (a : Nat), m.mode = .windowed → m.agreed = some a → slotOf a ≠ u.config.slot →
      (parseBeacon bytes = none → exec (.frameReceived dt bytes since) s = .next u) ∧
      (∀ b, parseBeacon bytes = some b → b.slot ≠ slotOf a → exec (.frameReceived dt bytes since) s = .next u) ∧
      (∀ b, parseBeacon bytes = some b → b.slot = slotOf a → b.tag ≠ u.config.tag →
        (∀ i : Fin 32, i ≠ slotOf a → (u.peers.entries[i]).tag ≠ some b.tag) →
        u.link.arrivals[slotOf a] = true → exec (.frameReceived dt bytes since) s = .next u))) ∧
  (∀ (dw dj dt : Elapsed) (bytes : List Byte) (since : Nat) (s t v : State), (s.request dw).station.state = .listen →
    exec (.withdraw dw []) s = .next t → exec (.join dj []) t = .next v →
    (v.elapse dt).synthTime < t.synthTime + 2 * since → exec (.frameReceived dt bytes since) v = .next (v.elapse dt))

/-- A frame is damaged (R8, R176) by a bad check, a wrong length, a format other than 1, an unknown state, a slot above 31,
the tag 0, a counted field above 31, a label offset or the offset of a label notice beyond a day, more than 8 echoes, an
echo slot above 31 or the sender's own, an echo age 2 or 3, and two echoes of one slot. -/
def Obligations.DamagedFramesFound : Prop :=
  ∀ (bs : List Byte),
    let anchor := if (natAt bs 3 1).testBit 0 then 4 else 0
    let notice := if (natAt bs 3 1).testBit 1 then 10 else 0
    let echoes := natAt bs 3 1 / 16
    let echoByte := fun k : Nat => natAt bs (19 + anchor + notice + 5 * k) 1
    (natAt bs (bs.length - 4) 4 ≠ (crc32 (bs.take (bs.length - 4))).toNat → parseBeacon bs = none) ∧
    (bs.length ≠ 19 + anchor + notice + 5 * echoes + 4 → parseBeacon bs = none) ∧ (77 < bs.length → parseBeacon bs = none) ∧
    (natAt bs 0 1 ≠ 1 → parseBeacon bs = none) ∧ (natAt bs 1 1 < 3 ∨ 7 < natAt bs 1 1 → parseBeacon bs = none) ∧
    (31 < natAt bs 2 1 → parseBeacon bs = none) ∧ (natAt bs 4 4 = 0 → parseBeacon bs = none) ∧
    (31 < natAt bs 14 1 → parseBeacon bs = none) ∧
    (intAt bs 15 4 < -86400 ∨ 86400 < intAt bs 15 4 → parseBeacon bs = none) ∧
    (notice = 10 → intAt bs (19 + anchor) 4 < -86400 ∨ 86400 < intAt bs (19 + anchor) 4 → parseBeacon bs = none) ∧
    (8 < echoes → parseBeacon bs = none) ∧
    (∀ k < echoes, 31 < echoByte k % 64 ∨ 2 ≤ echoByte k / 64 ∨ echoByte k % 64 = natAt bs 2 1 → parseBeacon bs = none) ∧
    (∀ j k, j < k → k < echoes → echoByte j % 64 = echoByte k % 64 → parseBeacon bs = none)

/-- A clashing frame is discarded and raises TAG_CLASH with the slot of the window, or in OPEN mode with the slot field
(R9, R10, R12). -/
def Obligations.ClashingFramesRaise : Prop :=
  ∀ (dt : Elapsed) (bytes : List Byte) (since : Nat) (b : Beacon) (s : State), let u := s.elapse dt
    let m := u.markAt since
    parseBeacon bytes = some b → m.coasting = false → u.link.mode ≠ .off →
    (∀ (a : Nat), m.mode = .windowed → m.agreed = some a → slotOf a ≠ u.config.slot → b.slot = slotOf a →
      (b.tag = u.config.tag ∨ ∃ i : Fin 32, i ≠ b.slot ∧ (u.peers.entries[i]).tag = some b.tag) →
      exec (.frameReceived dt bytes since) s = .next (u.raise (.tagClash (slotOf a)))) ∧
    (m.mode = .openMode → b.tag = u.config.tag →
      exec (.frameReceived dt bytes since) s = .next (u.raise (.tagClash b.slot))) ∧
    (m.mode = .openMode → b.slot ≠ u.config.slot →
      (∃ i : Fin 32, i ≠ b.slot ∧ (u.peers.entries[i]).tag = some b.tag) →
      exec (.frameReceived dt bytes since) s = .next (u.raise (.tagClash b.slot)))

/-- A good beacon that moves the station nowhere is handed to the entry of its slot (R9, R11, R12): in WINDOWED mode from
the window of its slot, the first of the round, and in OPEN mode; from a joined station, in FOUNDING one that the founder
does not yield to, and in LISTEN a JOINING or WITHDRAWING one. The entry takes the hand-off of R47 with the raw lag of R5,
absent where the clock was invalid at the mark; nothing else changes but the arrivals and the notices. The raw lag on the
clock as it reads (log 5) and the arrival noted in OPEN mode too (log 22) are the model's readings. -/
def Obligations.GoodBeaconHandedOn : Prop :=
  ∀ (dt : Elapsed) (bytes : List Byte) (since : Nat) (b : Beacon) (s : State), let u := s.elapse dt
    let m := u.markAt since
    let lag : Option Int := m.agreed.map fun a : Nat =>
      (a : Int) + u.stepsSince since - (b.round * 8000000 + b.slot.val * 250000 + 20000)
    parseBeacon bytes = some b → m.coasting = false → u.link.mode ≠ .off → b.tag ≠ u.config.tag → b.slot ≠ u.config.slot →
    (∀ i : Fin 32, i ≠ b.slot → (u.peers.entries[i]).tag ≠ some b.tag) →
    (m.mode = .openMode ∨
      (m.mode = .windowed ∧ m.agreed.map slotOf = some b.slot ∧ u.link.arrivals[b.slot] = false)) →
    (u.station.state = .joining ∨ u.station.state = .agreed ∨ u.station.state = .isolated ∨
      u.station.state = .withdrawing ∨
      (u.station.state = .founding ∧ (b.state = .joining ∨ b.state = .isolated ∨ b.state = .withdrawing ∨
        (b.state = .founding ∧ u.config.slot ≤ b.slot))) ∨
      (u.station.state = .listen ∧ (b.state = .joining ∨ b.state = .withdrawing))) →
    ∃ t, exec (.frameReceived dt bytes since) s = .next t ∧
      t.peers.entries[b.slot] = (u.peers.entries[b.slot]).handOff u.config.slot u.config.window u.peers.hold lag b ∧
      (∀ i : Fin 32, i ≠ b.slot → t.peers.entries[i] = u.peers.entries[i]) ∧ t.peers.hold = u.peers.hold ∧
      t.link.arrivals[b.slot] = true ∧
      (∀ i : Fin 32, i ≠ b.slot → t.link.arrivals[i] = u.link.arrivals[i]) ∧
      t = ((u.setLink { u.link with arrivals := t.link.arrivals }).setPeers t.peers).setNotices t.notices

/-- The hand-off of a good beacon to an entry, stage by stage (R46 to R48): the tag and a restart, the reported fields,
the raw lag, and the judgement of the observation on the delay estimate as it then stands. A restart raises PEER_LOST with
the tag that was held (R46, R64). -/
def Obligations.HandOffStages : Prop :=
  (∀ (own : Fin 32) (window hold : Nat) (lag : Option Int) (b : Beacon) (p : PeerEntry),
    let q := p.handOff own window hold lag b
    q.tag = some b.tag ∧ q.peerState = some b.state ∧ q.counted = some b.counted ∧
    q.labelOffset = some b.labelOffset ∧ q.notice = b.notice ∧ q.anchorOffset = b.anchorOffset ∧
    q.anchored = b.anchorOffset.isSome ∧ q.rawLag = lag ∧ (lag.isSome = true → q.lagAge = .zero) ∧
    (lag = none → q.lagAge = .stale) ∧
    (q.resultObservation = p.resultObservation ∧ q.resultDeviation = p.resultDeviation) ∧
    (p.state.occupied = true → p.tag ≠ some b.tag → q.state = .heard ∧ q.goodStreak = 0 ∧ q.wildStreak = 0 ∧
      q.absentStreak = 0) ∧
    (p.state.occupied = false ∨ p.tag = some b.tag → q.state = p.state ∧ q.goodStreak = p.goodStreak ∧
      q.wildStreak = p.wildStreak ∧ q.absentStreak = p.absentStreak) ∧
    (b.state = .withdrawing → q.observation = .leaving ∧ q.deviation = none ∧
      q.delay = (if p.restarts b.tag then none else p.delay)) ∧
    (b.state ≠ .withdrawing →
      (lag = none → q.observation = .good ∧ q.deviation = none) ∧
      (∀ x d, lag = some x → q.delay = some d →
        q.deviation = some ((d : Int) - x) ∧
        (((d : Int) - x).natAbs ≤ window → q.observation = .good) ∧
        (window < ((d : Int) - x).natAbs → q.observation = .wild)) ∧
      (∀ x, lag = some x → q.delay = none →
        q.deviation = none ∧
        (x.natAbs ≤ window + 5000 → q.observation = .good) ∧
        (window + 5000 < x.natAbs → q.observation = .wild)))) ∧
  (∀ (s : State) (slot : Fin 32) (lag : Option Int) (b : Beacon) (n : Nat), let p := s.peers.entries[slot]
    (p.state = .heard ∨ p.state = .counted ∨ p.state = .excluded) → p.tag = some n → n ≠ b.tag →
    Reports s (s.handToPeer slot lag b) (.peerLost slot n))

/-- The delay sample of a hand-off (R52, R53): half the sum of the two raw lags rounded toward zero, taken whole by an
entry without an estimate and for an eighth of the difference by one with one, so that the estimate stays within 0 to
5,000 ns; a sample outside that range, or none, leaves estimate and delay age (none and 0 after a restart, R46). -/
def Obligations.DelaySampleSmoothed : Prop :=
  ∀ (own : Fin 32) (window hold : Nat) (p : PeerEntry),
    let held := fun tag : Nat => if p.restarts tag then none else p.delay
    let heldAge := fun tag : Nat => if p.restarts tag then 0 else p.delayAge
    (∀ (lag : Option Int) (b : Beacon), lag = none ∨ b.echoOf own = none →
      (p.handOff own window hold lag b).delay = held b.tag ∧ (p.handOff own window hold lag b).delayAge = heldAge b.tag) ∧
    (∀ (x y : Int) (b : Beacon), let q := p.handOff own window hold (some x) b; let sample := Int.tdiv (x + y) 2
      b.echoOf own = some y →
      (b.state ≠ .withdrawing → hold = 0 → 0 ≤ sample → sample ≤ 5000 →
        q.delayAge = 0 ∧
        (held b.tag = none → q.delay = some sample.toNat) ∧
        (∀ d, held b.tag = some d → q.delay = some ((d : Int) + Int.tdiv (sample - d) 8).toNat ∧
          (d ≤ 5000 → ((d : Int) + Int.tdiv (sample - d) 8).toNat ≤ 5000))) ∧
      (b.state = .withdrawing ∨ 0 < hold ∨ sample < 0 ∨ 5000 < sample →
        q.delay = held b.tag ∧ q.delayAge = heldAge b.tag) ∧
      (b.state ≠ .withdrawing → hold = 0 → (sample < 0 ∨ 5000 < sample) → ∀ (slot : Fin 32) (s : State),
        s.config.slot = own → s.peers.hold = 0 → Reports s (s.handToPeer slot (some x) b) (.delayRange slot sample)))

/-- INTEGRATION (R28): in LISTEN a good beacon of an AGREED, ISOLATED or FOUNDING station moves the station to JOINING,
sets an invalid clock to the intended departure plus the time since the mark, or steps a valid one by the negative of
the raw lag, discarding the slew (R87), and reaches its entry with raw lag 0. The model's readings in it: the raw lag on
the clock as it reads (log 5), a mark on a clock then invalid (log 32), the arrival noted (log 22), and the order of the
step, a round end that it owes, and the hand-off (log 7). -/
def Obligations.ListenerIntegrates : Prop :=
  ∀ (dt : Elapsed) (bytes : List Byte) (since : Nat) (b : Beacon) (s : State), let u := s.elapse dt
    let m := u.markAt since
    let departure := b.round * 8000000 + b.slot.val * 250000 + 20000
    let stepped := fun (c : Nat) (x : Int) => if x = 0 then c else clampUnits (c + x * 1000000000)
    parseBeacon bytes = some b → m.coasting = false → m.mode = .openMode → u.link.mode ≠ .off →
    u.station.state = .listen → b.tag ≠ u.config.tag → b.slot ≠ u.config.slot →
    (∀ i : Fin 32, i ≠ b.slot → (u.peers.entries[i]).tag ≠ some b.tag) → u.link.owedRoundEnd = none →
    (b.state = .agreed ∨ b.state = .isolated ∨ b.state = .founding) →
    ∃ t, exec (.frameReceived dt bytes since) s = .next t ∧ t.station.state = .joining ∧
      Reports u t (.stateChanged .joining .integrated) ∧ t.discipline.joiningStepTaken = false ∧
      t.station.settleCount = 0 ∧ t.station.listenTimer = none ∧ t.link.mode = .windowed ∧
      (t.peers.entries[b.slot]).rawLag = some 0 ∧ (t.peers.entries[b.slot]).tag = some b.tag ∧
      t.link.arrivals[b.slot] = true ∧
      (u.discipline.clock = none → t.discipline.clock = some (clampUnits ((departure + since : Nat) * 1000000000))) ∧
      (∀ c, u.discipline.clock = some c → t.discipline.slew = none ∧
        (∀ a, m.agreed = some a →
          t.discipline.clock = some (stepped c (-((a : Int) + u.stepsSince since - departure)))) ∧
        (m.agreed = none →
          t.discipline.clock = some (stepped c (((departure + since : Nat) : Int) - (c / 1000000000 : Nat))))) ∧
      t.discipline.rate = u.discipline.rate ∧ t.source = u.source

/-- YIELDED (R31): a founder gives way to a FOUNDING beacon from a lower slot and to an AGREED beacon from any slot, and
integrates to it as R28 has it: its clock is stepped by the negative of the raw lag, discarding the slew (R87), and its
entry takes the raw lag 0. The raw lag on the clock as it reads (log 5), the arrival noted and the order of the step, a
round end that it owes, and the hand-off (logs 22 and 7) are the model's readings. -/
def Obligations.FounderYields : Prop :=
  ∀ (dt : Elapsed) (bytes : List Byte) (since : Nat) (b : Beacon) (a : Nat) (s : State), let u := s.elapse dt
    let m := u.markAt since
    let lag : Int := (a : Int) + u.stepsSince since - (b.round * 8000000 + b.slot.val * 250000 + 20000)
    parseBeacon bytes = some b → m.coasting = false → u.link.mode ≠ .off →
    m.mode = .windowed → m.agreed = some a → slotOf a ≠ u.config.slot → b.slot = slotOf a → b.tag ≠ u.config.tag →
    (∀ i : Fin 32, i ≠ b.slot → (u.peers.entries[i]).tag ≠ some b.tag) → u.link.arrivals[b.slot] = false →
    u.station.state = .founding → u.link.owedRoundEnd = none →
    (b.state = .agreed ∨ (b.state = .founding ∧ b.slot < u.config.slot)) →
    ∃ t, exec (.frameReceived dt bytes since) s = .next t ∧ t.station.state = .joining ∧
      Reports u t (.stateChanged .joining .yielded) ∧ t.discipline.joiningStepTaken = false ∧
      (∀ c, u.discipline.clock = some c → t.discipline.slew = none ∧
        t.discipline.clock = some (if lag = 0 then c else clampUnits (c - lag * 1000000000))) ∧
      (t.peers.entries[b.slot]).rawLag = some 0 ∧ (t.peers.entries[b.slot]).tag = some b.tag ∧
      t.link.arrivals[b.slot] = true ∧ t.link.collisions = u.link.collisions ∧
      t.discipline.rate = u.discipline.rate ∧ t.source = u.source

/-- SLOT_TAKEN (R29): in LISTEN an own-slot beacon moves the station to STANDBY and raises SLOT_CONFLICT with the other
station's tag; in any other state it changes nothing. -/
def Obligations.OwnSlotTaken : Prop :=
  ∀ (dt : Elapsed) (bytes : List Byte) (since : Nat) (b : Beacon) (s : State), let u := s.elapse dt
    let m := u.markAt since
    parseBeacon bytes = some b → m.coasting = false → m.mode = .openMode → u.link.mode ≠ .off →
    b.tag ≠ u.config.tag → b.slot = u.config.slot →
    (u.station.state = .listen →
      ∃ t, exec (.frameReceived dt bytes since) s = .next t ∧ t.station.state = .standby ∧
        t.station.faultReason = .cause .slotTaken ∧ t.link.mode = .off ∧ t.station.listenTimer = none ∧
        Reports u t (.stateChanged .standby .slotTaken) ∧ Reports u t (.slotConflict u.config.slot (some b.tag)) ∧
        t.peers = u.peers ∧ t.discipline = u.discipline ∧ t.agreement = u.agreement ∧ t.anchor = u.anchor) ∧
    (u.station.state ≠ .listen → exec (.frameReceived dt bytes since) s = .next u)

/-- A frame whose timing mark came in the own window is read back and reaches no other block (R18). While the window is
open, or its beacon is still to be judged, the frame is noted as damaged, as another station's, or as the station's own.
One that ends after the judgement has it made anew (the model's reading, log 19): a window judged clean that it spoils is a
collision, reported with the count raised from before the judgement (R19, R32, R40); a second clean own copy gives back
the count as it was (log 18); a collision already reported stands; of any other window the frame is dropped. -/
def Obligations.OwnWindowReadBack : Prop :=
  ∀ (dt : Elapsed) (bytes : List Byte) (since a : Nat) (s : State), let u := s.elapse dt; let m := u.markAt since
    let n := a / 8000000
    let stillOpen := u.link.toJudge = some n ∨ ∃ x, u.reading = some x ∧ x / 8000000 = n ∧ slotOf x = u.config.slot
    let foreign := parseBeacon bytes = none ∨ ∃ b, parseBeacon bytes = some b ∧ b.tag ≠ u.config.tag
    m.coasting = false → m.mode = .windowed → u.link.mode = .windowed → m.agreed = some a → slotOf a = u.config.slot →
    (stillOpen → ∃ t, exec (.frameReceived dt bytes since) s = .next t ∧
      t = u.setLink { u.link with readBack := t.link.readBack } ∧
      (parseBeacon bytes = none → t.link.readBack = { u.link.readBack with damaged := true }) ∧
      (∀ b, parseBeacon bytes = some b → b.tag ≠ u.config.tag →
        t.link.readBack = { u.link.readBack with other := true }) ∧
      (∀ b, parseBeacon bytes = some b → b.tag = u.config.tag → t.link.readBack.clean = true ∧
        t.link.readBack.damaged = u.link.readBack.damaged ∧ t.link.readBack.other = u.link.readBack.other)) ∧
    (¬stillOpen → (∀ j, u.link.judged = some j → j.round ≠ n) → exec (.frameReceived dt bytes since) s = .next u) ∧
    (∀ j, ¬stillOpen → u.link.judged = some j → j.round = n →
      (j.record = ⟨true, false, false, false⟩ → foreign →
        (u.station.state = .joining ∨ u.station.state = .agreed ∨ u.station.state = .isolated ∨
            u.station.state = .withdrawing →
          (j.before < 2 → ∃ r, exec (.frameReceived dt bytes since) s = .next (u.setLink { u.link with
            judged := some ⟨n, j.before, r⟩, collisions := j.before + 1 })) ∧
          (j.before = 2 → ∃ t, exec (.frameReceived dt bytes since) s = .next t ∧ t.station.state = .standby ∧
            t.station.faultReason = .cause .collision ∧ Reports u t (.stateChanged .standby .collision) ∧
            Reports u t (.slotConflict u.config.slot none) ∧ t.link.mode = .off ∧ t.link.collisions = 3)) ∧
        (u.station.state = .founding → ∃ t, exec (.frameReceived dt bytes since) s = .next t ∧
          t.station.state = .listen ∧ Reports u t (.stateChanged .listen .collision) ∧
          t.station.listenTimer = some (36 + u.config.slot.val))) ∧
      (j.record = ⟨true, false, false, false⟩ → ¬foreign →
        ∃ r, exec (.frameReceived dt bytes since) s = .next (u.setLink { u.link with
          judged := some ⟨n, j.before, r⟩, collisions := j.before })) ∧
      (j.record.clean = false ∨ j.record.other = true ∨ j.record.damaged = true →
        ∃ r, exec (.frameReceived dt bytes since) s = .next (u.setLink { u.link with judged := some ⟨n, j.before, r⟩ })))

/-- BEACON_BUILD (R15): in the own window before the frame start, while an occasion to build is open, a transmitting
station that does not coast and has not sent the round's beacon builds it from the blocks as they stand (R6, R7). Entry
into a transmitting state in that span opens an occasion (the window start is stated with the running clock, a step with
the steps). The occasion as an item of state, and the build at any reading up to the frame start, are the model's (log
41), and so is that a frame of the station still on the line puts the build off (log 50); a command where none is due lets
only time pass (log 2). -/
def Obligations.BeaconBuilt : Prop :=
  (∀ (dt : Elapsed) (s : State) (a : Nat) (st : PeerState), let u := s.elapse dt
    u.reading = some a → u.station.state.beaconState = some st → u.link.buildOpen = true → u.source.coasting = false →
    u.config.slot.val * 250000 ≤ a % 8000000 → a % 8000000 < u.config.slot.val * 250000 + 19520 →
    u.link.built = none → u.link.transmitter = none → a / 8000000 ∉ u.link.departed →
    ∃ t b, exec (.beaconBuild dt) s = .next t ∧ t.link.built = some ⟨b, a / 8000000, false⟩ ∧
      b.state = st ∧ b.slot = u.config.slot ∧ b.tag = u.config.tag ∧ b.round = a / 8000000 ∧
      b.counted = u.peers.number .counted ∧ b.labelOffset = u.anchor.labelOffset ∧
      (∀ x, b.anchorOffset = some x ↔ u.config.anchorEnabled = true ∧ u.anchor.valid = true ∧
        u.anchor.offset = some x ∧ -2147483648 ≤ x ∧ x ≤ 2147483647) ∧
      (∀ n : LabelNotice, b.notice = some n ↔ u.anchor.change = some ⟨n.offset, n.second, .originated⟩) ∧
      b.echoes = u.peers.selectEchoes u.link.echoPointer ∧
      t.link.echoPointer = pointerAfter u.link.echoPointer b.echoes ∧
      t = u.setLink { u.link with built := t.link.built, buildOpen := false, echoPointer := t.link.echoPointer }) ∧
  (∀ (dt : Elapsed) (s : State), let u := s.elapse dt
    (u.reading = none ∨ u.station.state.transmits = false ∨ u.link.buildOpen = false ∨ u.source.coasting = true ∨
      u.link.built.isSome = true ∨ u.link.transmitter.isSome = true ∨
      (∃ a, u.reading = some a ∧ (a / 8000000 ∈ u.link.departed ∨
        ¬(u.config.slot.val * 250000 ≤ a % 8000000 ∧ a % 8000000 < u.config.slot.val * 250000 + 19520)))) →
    exec (.beaconBuild dt) s = .next u) ∧
  (∀ (s t : State) (cause : Cause) (a : Nat), s.reading = some a → s.source.coasting = false →
    s.config.slot.val * 250000 ≤ a % 8000000 → a % 8000000 < s.config.slot.val * 250000 + 19520 →
    t ∈ [s.enterFounding cause, s.enterJoining cause, s.enterAgreed cause, s.enterIsolated cause,
      s.enterWithdrawing cause] → t.link.buildOpen = true)

/-- Echo selection (R13): from the echo pointer upward, wrapping, at most 8 entries are taken, each of an entry that is
HEARD, COUNTED or EXCLUDED with a raw lag of age 0 or 1 that fits, in the order of the walk; an entry that fulfils this and
is not taken lies behind 8 that are. The pointer moves to the slot after the last one taken, and stays where none is. -/
def Obligations.EchoesSelected : Prop :=
  ∀ (t : PeerTable) (pointer : Fin 32), let es := t.selectEchoes pointer
    es.length ≤ 8 ∧ es.Pairwise (fun e f => e.slot - pointer < f.slot - pointer) ∧
    (∀ e ∈ es, let p := t.entries[e.slot]
      (p.state = .heard ∨ p.state = .counted ∨ p.state = .excluded) ∧ p.rawLag = some e.lag ∧
      ((p.lagAge = .zero ∧ e.age = 0) ∨ (p.lagAge = .one ∧ e.age = 1)) ∧
      -2147483648 ≤ e.lag ∧ e.lag ≤ 2147483647) ∧
    (∀ (i : Fin 32) (x : Int), let p := t.entries[i]
      (p.state = .heard ∨ p.state = .counted ∨ p.state = .excluded) → p.rawLag = some x → p.lagAge ≠ .stale →
      -2147483648 ≤ x → x ≤ 2147483647 →
      (∃ e ∈ es, e.slot = i) ∨ (es.length = 8 ∧ ∀ e ∈ es, e.slot - pointer < i - pointer)) ∧
    (es = [] → pointerAfter pointer es = pointer) ∧
    (∀ e, es.getLast? = some e → pointerAfter pointer es = e.slot + 1)

/-- FRAME_START begins the frame of a built beacon 480 ns before its intended departure; BEACON_DEPARTURE releases the
transmitter when the last bit has gone and reports the departure; the second departure of a WITHDRAWING beacon ends the
withdrawal in STANDBY, by WITHDRAWN as by BEACON_DEPARTURE (R16, R39). Entry into LISTEN or STANDBY abandons the beacon and
leaves a frame that has begun on the line: at its end the transmitter is released, no departure is reported, no withdrawal
counts it, and its window is not judged (R17). The one step of two rows (log 3), the departure reported at the last bit (log
21), the bits of a frame in synthesizer time (log 36), the round of such a frame among those departed (log 20), and a command
before its instant (log 2) are the model's. -/
def Obligations.BeaconSentAndReported : Prop :=
  ∀ (dt : Elapsed) (s : State), let u := s.elapse dt
    (∀ a b, u.reading = some a → u.link.built = some b → b.begun = false → u.link.transmitter = none →
      u.station.state.transmits = true → u.source.coasting = false →
      b.round * 8000000 + b.beacon.slot.val * 250000 + 20000 - 480 ≤ a →
      exec (.frameStart dt) s = .next (u.setLink { u.link with
        built := some { b with begun := true }
        transmitter := some ⟨[0xAA#8, 0xAA#8, 0x9B#8] ++ b.beacon.bytes, b.round,
          u.synthTime + 2 * (480 + 160 * b.beacon.bytes.length)⟩ })) ∧
    (∀ x b, u.link.transmitter = some x → x.doneAt ≤ u.synthTime → u.link.built = some b → b.begun = true →
      (u.station.state ≠ .withdrawing ∨ b.beacon.state ≠ .withdrawing →
        exec (.beaconDeparture dt) s = .next (u.setLink { u.link with
          transmitter := none, departed := x.round :: u.link.departed, built := none, toJudge := some x.round })) ∧
      (u.station.state = .withdrawing → b.beacon.state = .withdrawing → u.station.withdrawCount = 0 →
        ∃ t, exec (.beaconDeparture dt) s = .next t ∧ t.station = { u.station with withdrawCount := 1 } ∧
          t.link.transmitter = none) ∧
      (u.station.state = .withdrawing → b.beacon.state = .withdrawing → u.station.withdrawCount = 1 →
        ∃ t, exec (.withdrawn dt) s = .next t ∧ exec (.beaconDeparture dt) s = .next t ∧
          t.station.state = .standby ∧ t.station.faultReason = .cause .withdrawn ∧
          Reports u t (.stateChanged .standby .withdrawn) ∧ t.link.mode = .off ∧ t.link.transmitter = none ∧
          t.discipline = u.discipline ∧ t.peers = u.peers ∧ t.agreement = u.agreement ∧ t.anchor = u.anchor)) ∧
    (∀ x, u.link.transmitter = some x → x.doneAt ≤ u.synthTime →
      (u.link.built = none ∨ ∃ b, u.link.built = some b ∧ b.begun = false) →
      exec (.beaconDeparture dt) s = .next (u.setLink { u.link with
        transmitter := none, departed := x.round :: u.link.departed }) ∧
      exec (.withdrawn dt) s = .next u) ∧
    (∀ x, u.link.transmitter = some x → u.synthTime < x.doneAt →
      exec (.beaconDeparture dt) s = .next u ∧ exec (.withdrawn dt) s = .next u) ∧
    (∀ (cause : Cause) (t : State), t ∈ [u.enterListen cause, u.enterStandby cause] →
      t.link.built = none ∧ t.link.toJudge = none ∧ t.link.transmitter = u.link.transmitter ∧
      t.link.departed = u.link.departed ∧ t.link.collisions = u.link.collisions)

/-- The own window closes (R18, R19): a window judged clean sets the collision count to 0, a collision raises it by 1
and below 3 leaves a joined station's state; a window in which no whole beacon was sent is not judged. The model keeps
the judgement for a frame of the window that ends later (log 19), and takes the window as closed wherever the reading is not
in it, after a step backward too (log 49); where a step leaves it while the own frame is still being sent, the model clears
the record at the close and judges at the one given after the frame's end (log 54). -/
def Obligations.OwnWindowJudged : Prop :=
  ∀ (dt : Elapsed) (s : State) (a : Nat), let u := s.elapse dt
    u.reading = some a → u.link.mode = .windowed →
    (∀ n, u.link.toJudge = some n → (a / 8000000 ≠ n ∨ slotOf a ≠ u.config.slot) →
      (u.link.readBack = ⟨true, false, false, false⟩ →
        exec (.ownWindowClose dt) s = .next (u.setLink { u.link with
          collisions := 0, judged := some ⟨n, u.link.collisions, u.link.readBack⟩
          readBack := ⟨false, false, false, false⟩, toJudge := none, buildOpen := false })) ∧
      (u.link.readBack.clean = false ∨ u.link.readBack.other = true ∨ u.link.readBack.damaged = true →
        (u.station.state = .joining ∨ u.station.state = .agreed ∨ u.station.state = .isolated ∨
          u.station.state = .withdrawing) → u.link.collisions + 1 < 3 →
        exec (.ownWindowClose dt) s = .next (u.setLink { u.link with
          collisions := u.link.collisions + 1, judged := some ⟨n, u.link.collisions, u.link.readBack⟩
          readBack := ⟨false, false, false, false⟩, toJudge := none, buildOpen := false }))) ∧
    (u.link.toJudge = none → slotOf a ≠ u.config.slot →
      exec (.ownWindowClose dt) s = .next (u.setLink { u.link with
        readBack := ⟨false, false, false, false⟩, toJudge := none, buildOpen := false }))

/-- A collision reported by the closing own window (R32, R40): in FOUNDING the first moves the station to LISTEN with
cause COLLISION and 32 extra listen rounds, so that the timer starts at 36 + slot, clock and Peer Table are kept, and a
round end that is due at the same instant stays due (R3); in JOINING, AGREED, ISOLATED or WITHDRAWING a first or second
leaves the state as it is, and the one with the count reaching 3 moves the station to STANDBY with cause COLLISION and
raises SLOT_CONFLICT without a tag, by COLLISION as by OWN_WINDOW_CLOSE (log 3). That a step backward out of the window
closes it too is the model's reading (log 49). -/
def Obligations.CollisionsMoveTheStation : Prop :=
  ∀ (dt : Elapsed) (s : State) (a n : Nat), let u := s.elapse dt
    u.reading = some a → u.link.mode = .windowed → u.link.toJudge = some n →
    (a / 8000000 ≠ n ∨ slotOf a ≠ u.config.slot) →
    (u.link.readBack.clean = false ∨ u.link.readBack.other = true ∨ u.link.readBack.damaged = true) →
    (u.station.state = .founding →
      ∃ t, exec (.ownWindowClose dt) s = .next t ∧ t.station.state = .listen ∧
        Reports u t (.stateChanged .listen .collision) ∧ t.station.listenTimer = some (36 + u.config.slot.val) ∧
        t.station.extraListen = 0 ∧ t.link.mode = .openMode ∧ t.roundEndDue = u.roundEndDue ∧
        t.discipline = u.discipline ∧ t.peers = u.peers ∧
        t.agreement = u.agreement ∧ t.anchor = u.anchor ∧ t.source = u.source ∧ t.gens = u.gens) ∧
    ((u.station.state = .joining ∨ u.station.state = .agreed ∨ u.station.state = .isolated ∨
        u.station.state = .withdrawing) →
      (u.link.collisions < 2 → ∃ t, exec (.ownWindowClose dt) s = .next t ∧ t = u.setLink t.link ∧
        t.link.collisions = u.link.collisions + 1) ∧
      (u.link.collisions = 2 →
        ∃ t, exec (.collision dt) s = .next t ∧ exec (.ownWindowClose dt) s = .next t ∧ t.station.state = .standby ∧
          t.station.faultReason = .cause .collision ∧ Reports u t (.stateChanged .standby .collision) ∧
          Reports u t (.slotConflict u.config.slot none) ∧ t.link.mode = .off ∧ t.link.collisions = 3 ∧
          t.discipline = u.discipline ∧ t.peers = u.peers ∧ t.agreement = u.agreement ∧ t.anchor = u.anchor))

/-! ### Round ends -/

/-- ROUND_END is signalled where R3 signals it: on a valid clock when the reading enters a round it has not been in and
no round end of the round before stands; in LISTEN without a clock at each 8,000,000 ns of synthesizer time (16,000,000
half ns); in STANDBY, STARTING and STALLED never. A signal sets the last round end and begins the arrivals anew (log 2:
where none is due, only time passes). -/
def Obligations.RoundEndSignalled : Prop :=
  ∀ (dt : Elapsed) (s : State), let u := s.elapse dt
    ((u.station.state = .standby ∨ u.station.state = .starting ∨ u.station.state = .stalled) →
      exec (.roundEnd dt) s = .next u) ∧
    ((u.station.state = .listen ∨ u.station.state = .founding ∨ u.station.state = .joining ∨
        u.station.state = .agreed ∨ u.station.state = .isolated ∨ u.station.state = .withdrawing) →
      (∀ a, u.reading = some a → (∀ m, u.link.followed = some m → m < a / 8000000) →
        (∀ l, u.link.lastRoundEnd = some l → l + 1 < a / 8000000) → 0 < a / 8000000 →
        exec (.roundEnd dt) s = .next (u.roundEnd (some (a / 8000000 - 1))) ∧
        (u.signal (some (a / 8000000 - 1))).link.lastRoundEnd = some (a / 8000000 - 1) ∧
        (u.signal (some (a / 8000000 - 1))).link.arrivals = Vector.replicate 32 false ∧
        u.signal (some (a / 8000000 - 1)) = u.setLink (u.signal (some (a / 8000000 - 1))).link) ∧
      (∀ a m, u.reading = some a → u.link.followed = some m → a / 8000000 ≤ m → exec (.roundEnd dt) s = .next u) ∧
      (∀ a l, u.reading = some a → u.link.lastRoundEnd = some l → a / 8000000 ≤ l + 1 →
        exec (.roundEnd dt) s = .next u) ∧
      (∀ h, u.reading = none → u.link.listenRound = some h → 16000000 ≤ h →
        exec (.roundEnd dt) s = .next (u.roundEnd none) ∧
        (u.signal none).link.lastRoundEnd = u.link.lastRoundEnd ∧
        (u.signal none).link.listenRound = some (h - 16000000)) ∧
      (∀ h, u.reading = none → u.link.listenRound = some h → h < 16000000 → exec (.roundEnd dt) s = .next u))

/-- The round close (R50, R54 to R60): SELF passes unchanged; every other entry counts the closed observation (ABSENT where
none came to a known peer), ages its raw lag and delay estimate, makes the change of state R57 decides, row by row, records
the result and opens the next round; but for the rows that empty it, it keeps what it was told. An entry that R57 empties,
VACANT and neither GOOD nor ABSENT, LEAVING, or lost, keeps nothing but that result (R60). A VACANT entry is never ABSENT
(R55), and such a one only stays VACANT here. The sample hold count falls by 1, and no block but the Peer Table and the Notice
Unit changes. -/
def Obligations.RoundCloseOfEntries : Prop :=
  (∀ s : State, let t := s.closeTable
    t = (s.setPeers t.peers).setNotices t.notices ∧ t.peers.hold = s.peers.hold - 1 ∧
    (∀ i : Fin 32, t.peers.entries[i] = (s.peers.entries[i]).close s.config.admission)) ∧
  (∀ (admission : Nat) (p : PeerEntry), let q := p.close admission
    let held := p.delay.isSome = true ∧ p.delayAge < 256
    let expired := p.delay.isSome = true ∧ 256 ≤ p.delayAge
    (p.state = .self → q = p) ∧
    (p.state ≠ .self →
      q.observation = .none ∧ q.deviation = none ∧ q.resultDeviation = p.deviation ∧
      ((p.state = .heard ∨ p.state = .counted ∨ p.state = .excluded) → p.observation = .none →
        q.resultObservation = .absent) ∧
      ((p.state = .vacant ∨ p.observation ≠ .none) → q.resultObservation = p.observation) ∧
      (q.state ≠ .vacant → (p.lagAge = .zero → q.lagAge = .one) ∧ (p.lagAge ≠ .zero → q.lagAge = .stale) ∧
        q.rawLag = p.rawLag ∧ q.tag = p.tag ∧ q.peerState = p.peerState ∧ q.counted = p.counted ∧
        q.anchored = p.anchored ∧ q.anchorOffset = p.anchorOffset ∧ q.labelOffset = p.labelOffset ∧ q.notice = p.notice ∧
        (held → q.delay = p.delay ∧ q.delayAge = p.delayAge + 1) ∧ (expired → q.delay = none ∧ q.delayAge = 0) ∧
        (p.delay = none → q.delay = none ∧ q.delayAge = p.delayAge)) ∧
      (p.state = .vacant →
        (p.observation = .good → q.state = .heard ∧ q.goodStreak = 1 ∧ q.wildStreak = 0 ∧ q.absentStreak = 0) ∧
        (p.observation ≠ .good → q.state = .vacant) ∧
        (p.observation ≠ .good → p.observation ≠ .absent → q = { PeerEntry.empty with
          resultObservation := p.observation, resultDeviation := p.deviation })) ∧
      ((p.state = .heard ∨ p.state = .counted ∨ p.state = .excluded) →
        (p.observation = .leaving → q = { PeerEntry.empty with
          resultObservation := .leaving, resultDeviation := p.deviation }) ∧
        ((p.observation = .none ∨ p.observation = .absent) →
          (15 ≤ p.absentStreak → q = { PeerEntry.empty with
            resultObservation := .absent, resultDeviation := p.deviation }) ∧
          (p.absentStreak < 15 →
            q.absentStreak = p.absentStreak + 1 ∧ q.goodStreak = 0 ∧ q.wildStreak = 0)) ∧
        (p.observation = .good → q.goodStreak = min 255 (p.goodStreak + 1) ∧ q.wildStreak = 0 ∧ q.absentStreak = 0) ∧
        (p.observation = .wild → q.wildStreak = min 255 (p.wildStreak + 1) ∧ q.goodStreak = 0 ∧ q.absentStreak = 0)) ∧
      (p.observation = .good ∨ p.observation = .wild ∨ (p.observation ≠ .leaving ∧ p.absentStreak < 15) →
        (p.state = .heard →
          (held → admission ≤ q.goodStreak → q.state = .counted) ∧
          (¬held ∨ q.goodStreak < admission → q.state = .heard)) ∧
        (p.state = .counted →
          (expired ∨ 4 ≤ q.absentStreak → q.state = .heard) ∧
          (¬expired → q.absentStreak < 4 →
            (3 ≤ q.wildStreak → q.state = .excluded) ∧ (q.wildStreak < 3 → q.state = .counted))) ∧
        (p.state = .excluded →
          (q.goodStreak < 8 → q.state = .excluded) ∧
          (8 ≤ q.goodStreak → (held → q.state = .counted) ∧ (¬held → q.state = .heard))))))

/-- The rows that name what a round end comes to for one entry (R56 to R60, R64; log 3): PEER_ADMITTED, PEER_EXCLUDED,
PEER_DEMOTED, PEER_LOST and DELAY_ESTIMATE_EXPIRED are the round end that is due when its round close makes that change to
the entry, which is then so and is reported with the entry's slot and tag unless a later entry of the close is. A LEAVING
entry is emptied and reported so by PEER_LEFT at the round end. The round end is the model's, which takes what a step in it
owes at its end (log 7). -/
def Obligations.PeerChangesReported : Prop :=
  ∀ (dt : Elapsed) (s : State) (index : Option Nat) (slot : Fin 32) (n : Nat), let u := s.elapse dt
    let p := u.peers.entries[slot]; let adm := u.config.admission; let c := (u.signal index).closeTable
    let q := c.peers.entries[slot]
    u.roundEndDue = some index → p.tag = some n →
    (p.state = .heard → p.observation = .good → (∃ d, p.delay = some d) → p.delayAge < 256 → p.goodStreak < 255 →
      adm ≤ p.goodStreak + 1 →
      exec (.peerAdmitted dt slot) s = .next (u.roundEnd index) ∧ q.state = .counted ∧ q.delay = p.delay ∧
      ((∀ i : Fin 32, slot < i → u.admits i = false) → Reports u c (.peerAdmitted slot n))) ∧
    (p.state = .excluded → p.observation = .good → (∃ d, p.delay = some d) → p.delayAge < 256 → 7 ≤ p.goodStreak →
      exec (.peerAdmitted dt slot) s = .next (u.roundEnd index) ∧ q.state = .counted ∧
      ((∀ i : Fin 32, slot < i → u.admits i = false) → Reports u c (.peerAdmitted slot n))) ∧
    (p.state = .counted → p.observation = .wild → p.delayAge < 256 → 2 ≤ p.wildStreak →
      exec (.peerExcluded dt slot) s = .next (u.roundEnd index) ∧ q.state = .excluded ∧
      ((∀ i : Fin 32, slot < i → u.excludes i = false) → Reports u c (.peerExcluded slot n))) ∧
    (p.state = .counted → p.observation = .none → p.delayAge < 256 → 3 ≤ p.absentStreak → p.absentStreak < 15 →
      exec (.peerDemoted dt slot) s = .next (u.roundEnd index) ∧ q.state = .heard ∧ q.goodStreak = 0 ∧
      q.absentStreak = p.absentStreak + 1 ∧ q.delay = p.delay) ∧
    ((p.state = .heard ∨ p.state = .counted ∨ p.state = .excluded) → p.observation = .none → 15 ≤ p.absentStreak →
      exec (.peerLost dt slot) s = .next (u.roundEnd index) ∧ q.state = .vacant ∧ q.tag = none ∧ q.delay = none ∧
      ((∀ i : Fin 32, slot < i → u.loses i = false) → Reports u c (.peerLost slot n))) ∧
    ((p.state = .heard ∨ p.state = .counted ∨ p.state = .excluded) → p.observation = .leaving →
      exec (.roundEnd dt) s = .next (u.roundEnd index) ∧
      q = { PeerEntry.empty with resultObservation := .leaving, resultDeviation := p.deviation } ∧
      ((∀ i : Fin 32, slot < i → (u.peers.entries[i]).observation ≠ .leaving) → Reports u c (.peerLeft slot n))) ∧
    (p.state ≠ .self → (∃ d, p.delay = some d) → 256 ≤ p.delayAge →
      exec (.delayEstimateExpired dt slot) s = .next (u.roundEnd index) ∧ q.delay = none ∧ q.delayAge = 0 ∧
      (p.state = .counted → p.observation = .good → q.state = .heard))

/-- A round close in FOUNDING (R30): with Q or more entries that hold a delay estimate and show JOINING or AGREED the
station enters AGREED with cause FOUNDED, its holdover record valid, and the agreement point follows in AGREED; otherwise
the founding timer rises, and at 64 the station enters LISTEN with cause TIMEOUT, by FOUNDING_TIMEOUT as by ROUND_END
(log 3), its clock and Peer Table kept. That a round end owed by a step of the point is taken after it is the model's
reading (log 7). -/
def Obligations.FoundingRoundClose : Prop :=
  ∀ (dt : Elapsed) (s : State) (index : Option Nat), let u := s.elapse dt; let c := (u.signal index).closeTable
    let count := ((List.finRange 32).filter fun i => (c.peers.entries[i]).delay.isSome &&
      ((c.peers.entries[i]).peerState == some .joining || (c.peers.entries[i]).peerState == some .agreed)).length
    u.roundEndDue = some index → u.station.state = .founding → u.link.owedRoundEnd = none →
    (u.config.quorum ≤ count →
      exec (.roundEnd dt) s = .next ((c.enterAgreed .founded).agreementPoint.settleOwed 2) ∧
      (c.enterAgreed .founded).station.state = .agreed ∧
      Reports u (c.enterAgreed .founded) (.stateChanged .agreed .founded) ∧
      (c.enterAgreed .founded).discipline =
        { u.discipline with holdoverValue := u.discipline.rate, holdoverValid := true } ∧
      (c.enterAgreed .founded).agreement = { u.agreement with shortRounds := 0, disagreements := 0 } ∧
      (c.enterAgreed .founded).peers = c.peers) ∧
    (count < u.config.quorum → u.station.foundingTimer + 1 < 64 →
      exec (.roundEnd dt) s =
        .next (c.setStation { u.station with foundingTimer := u.station.foundingTimer + 1 })) ∧
    (count < u.config.quorum → 64 ≤ u.station.foundingTimer + 1 →
      ∃ t, exec (.foundingTimeout dt) s = .next t ∧ exec (.roundEnd dt) s = .next t ∧ t.station.state = .listen ∧
        Reports u t (.stateChanged .listen .timeout) ∧
        t.station.listenTimer = some (4 + u.config.slot.val + u.station.extraListen) ∧ t.station.extraListen = 0 ∧
        t.link.mode = .openMode ∧ t.discipline = u.discipline ∧ t.peers = c.peers ∧ t.agreement = u.agreement ∧
        t.anchor = u.anchor ∧ t.source = u.source ∧ t.gens = u.gens ∧ t.timecode = u.timecode)

/-- A round close in JOINING (R35): with no entry HEARD or COUNTED the joining silence count rises by 1, otherwise it is
set to 0; at 16 the station enters LISTEN with cause TIMEOUT, by JOINING_SILENCE_TIMEOUT as by ROUND_END (log 3), and no
agreement point runs. That a round end owed by a step of the point is taken after it is the model's reading (log 7). -/
def Obligations.JoiningRoundClose : Prop :=
  ∀ (dt : Elapsed) (s : State) (index : Option Nat), let u := s.elapse dt; let c := (u.signal index).closeTable
    u.roundEndDue = some index → u.station.state = .joining → u.link.owedRoundEnd = none →
    ((∃ i : Fin 32, (c.peers.entries[i]).state = .heard ∨ (c.peers.entries[i]).state = .counted) →
      exec (.roundEnd dt) s =
        .next (((c.setStation { u.station with silenceCount := 0 }).agreementPoint).settleOwed 2)) ∧
    ((∀ i : Fin 32, (c.peers.entries[i]).state ≠ .heard ∧ (c.peers.entries[i]).state ≠ .counted) →
      (u.station.silenceCount + 1 < 16 →
        exec (.roundEnd dt) s = .next
          (((c.setStation { u.station with silenceCount := u.station.silenceCount + 1 }).agreementPoint).settleOwed 2)) ∧
      (16 ≤ u.station.silenceCount + 1 →
        ∃ t, exec (.joiningSilenceTimeout dt) s = .next t ∧ exec (.roundEnd dt) s = .next t ∧
          t.station.state = .listen ∧ Reports u t (.stateChanged .listen .timeout) ∧
          t.station.listenTimer = some (4 + u.config.slot.val + u.station.extraListen) ∧ t.station.extraListen = 0 ∧
          t.link.mode = .openMode ∧ t.discipline = u.discipline ∧ t.peers = c.peers ∧ t.agreement = u.agreement ∧
          t.anchor = u.anchor ∧ t.source = u.source ∧ t.gens = u.gens ∧ t.timecode = u.timecode))

/-- A round end in LISTEN lowers the listen timer (R25). At its expiry, by LISTEN_TIMER_EXPIRY as by ROUND_END (log 3), a
station that may not found raises ALONE or NO_SEED once a stay and starts the timer again; one that may enters FOUNDING
with cause EXPIRED and sets its clock: from its anchor, as it reads, or from the seed (R26, R27). The anchor's step is
stated where it does not carry the reading into a later round; the clock is kept within its range. -/
def Obligations.ListenTimerExpires : Prop :=
  ∀ (dt : Elapsed) (s : State) (index : Option Nat), let u := s.elapse dt; let c := (u.signal index).closeTable
    let founds := u.config.founding = true ∧ (u.station.seed.isSome = true ∨ u.anchor.valid = true)
    u.roundEndDue = some index → u.station.state = .listen → u.link.owedRoundEnd = none →
    (∀ k, u.station.listenTimer = some (k + 2) →
      exec (.roundEnd dt) s = .next (c.setStation { u.station with listenTimer := some (k + 1) })) ∧
    (u.station.listenTimer = some 1 → ¬founds →
      ∃ t, exec (.listenTimerExpiry dt) s = .next t ∧ exec (.roundEnd dt) s = .next t ∧
        t.station = { u.station with listenNotice := true, listenTimer := some (4 + u.config.slot.val) } ∧
        (u.station.listenNotice = false → u.config.founding = true → Reports u t .noSeed) ∧
        (u.station.listenNotice = false → u.config.founding = false → Reports u t .alone) ∧
        (u.station.listenNotice = true → t.notices = c.notices) ∧
        t = (c.setStation t.station).setNotices t.notices) ∧
    (u.station.listenTimer = some 1 → founds →
      ∃ t, exec (.listenTimerExpiry dt) s = .next t ∧ exec (.roundEnd dt) s = .next t ∧
        ((∀ x a, u.anchor.valid = true → u.anchor.offset = some x → u.discipline.clock = some a →
            clampUnits (a + x * 1000000000) / 1000000000 / 8000000 ≤ a / 1000000000 / 8000000) →
          t.station.state = .founding ∧ Reports u t (.stateChanged .founding .expired) ∧
          t.station.foundingTimer = 0 ∧ t.station.listenTimer = none ∧ t.link.mode = .windowed ∧
          t.agreement = { u.agreement with shortRounds := 0, disagreements := 0 } ∧
          t.station.seed = u.station.seed ∧ t.source = u.source ∧ t.discipline.rate = u.discipline.rate ∧
          (∀ x a, u.anchor.valid = true → u.anchor.offset = some x → u.discipline.clock = some a →
            t.discipline.clock = some (if x = 0 then a else clampUnits (a + x * 1000000000)) ∧
            (x ≠ 0 → Reports u t (.stepped .founding x) ∧ t.anchor.offset = some 0)) ∧
          (∀ a, u.anchor.valid = false → u.discipline.clock = some a → t.discipline = u.discipline) ∧
          (∀ w, u.anchor.valid = false → u.discipline.clock = none → u.station.seed = some w →
            t.discipline.clock = some (clampUnits
              ((w.seconds * 1000000000 + w.ns) * 1000000000 + w.elapsedRc * 62500000000 : Nat)))))

/-- A short round in AGREED raises the short-round count and corrects nothing but by steering; the eighth moves the
station to ISOLATED with cause QUORUM, by QUORUM as by ROUND_END (R36, R71; log 3). -/
def Obligations.QuorumLost : Prop :=
  ∀ (dt : Elapsed) (s : State) (index : Option Nat), let u := s.elapse dt; let c := (u.signal index).closeTable
    u.roundEndDue = some index → u.station.state = .agreed → u.link.owedRoundEnd = none →
    c.contributors.length < u.config.quorum →
    ∃ t, exec (.roundEnd dt) s = .next t ∧
      t.agreement = { u.agreement with shortRounds := min 255 (u.agreement.shortRounds + 1) } ∧
      t.peers = c.peers ∧ t.discipline.rate = u.discipline.rate ∧ t.discipline.clock = u.discipline.clock ∧
      t.source = u.source ∧ t.gens = u.gens ∧ t.timecode = u.timecode ∧
      (u.agreement.shortRounds < 7 → t.station = u.station ∧ t.link = (u.signal index).link) ∧
      (7 ≤ u.agreement.shortRounds →
        exec (.quorum dt) s = .next t ∧ t.station.state = .isolated ∧
        Reports u t (.stateChanged .isolated .quorum) ∧ t.link.mode = .windowed ∧
        t.station.faultReason = u.station.faultReason)

/-- An agreement point with quorum in AGREED, in the majority (R36, R74, R75, R94): after the label notices and the anchor
figure the estimate is recorded, and the discipline rules take it with the steering term. Within M it goes to them unmarked
and the disagreement count is 0; beyond M it goes to them marked, corrects nothing, and the count rises. The third in a row
moves the station to JOINING with cause DISAGREE, by DISAGREE as by ROUND_END (log 3), the clock and the Peer Table kept. The
order inside the point (log 34) and a round end owed by a step (log 7) are the model's reading. -/
def Obligations.ThirdDisagreementRejoins : Prop :=
  ∀ (dt : Elapsed) (s : State) (index : Option Nat), let u := s.elapse dt; let c := (u.signal index).closeTable
    let e := estimateOf c.deviationList
    let x := c.examineLabels c.contributors
    let steering := x.steer c.contributors
    let recorded := fun n : Nat =>
      (x.raiseAll steering.2).setAgreement ⟨some e, some (spreadOf c.deviationList), 0, n⟩
    u.roundEndDue = some index → u.station.state = .agreed → u.link.owedRoundEnd = none →
    u.config.quorum ≤ c.contributors.length → c.minority = false →
    (e.natAbs ≤ u.config.maxStep → let t := (recorded 0).applyRules e false steering.1
      exec (.roundEnd dt) s = .next (t.settleOwed 2) ∧
      (e.natAbs ≤ u.config.stepThreshold → exec (.roundEnd dt) s = .next t ∧ t.station = u.station ∧
        t.peers = c.peers ∧ t.link = (u.signal index).link ∧ t.discipline.clock = u.discipline.clock ∧
        t.agreement = ⟨some e, some (spreadOf c.deviationList), 0, 0⟩ ∧ t.source = u.source ∧ t.gens = u.gens)) ∧
    (u.config.maxStep < e.natAbs →
      ∃ t, exec (.roundEnd dt) s = .next t ∧ t.agreement.estimate = some e ∧
        t.agreement.spread = some (spreadOf c.deviationList) ∧ t.agreement.shortRounds = 0 ∧
        t.peers = c.peers ∧ t.discipline.rate = u.discipline.rate ∧ t.discipline.clock = u.discipline.clock ∧
        t.discipline.restart = u.discipline.restart ∧ t.discipline.coastMark = u.discipline.coastMark ∧
        t.source = u.source ∧ t.gens = u.gens ∧
        (u.agreement.disagreements < 2 →
          t = (recorded (u.agreement.disagreements + 1)).applyRules e true steering.1 ∧
          t.station = u.station ∧ t.agreement.disagreements = u.agreement.disagreements + 1) ∧
        (2 ≤ u.agreement.disagreements →
          exec (.disagree dt) s = .next t ∧ t.station.state = .joining ∧
          Reports u t (.stateChanged .joining .disagree) ∧ t.agreement.disagreements = 0 ∧
          t.discipline = { ((recorded 3).applyRules e true steering.1).discipline with joiningStepTaken := false } ∧
          t.station.settleCount = 0 ∧ t.station.silenceCount = 0))

/-- An agreement point in JOINING (R33, R34, R74, R89, R90). Without a contributor the settle count is set to 0. With one the
estimate is recorded and the discipline rules take it, unmarked and without steering. The first is the joining step: the
clock is stepped by it whatever its size, and the settle count stays. After it an estimate beyond H steps the clock and sets
the count to 0, and one within H raises it; at the fourth the station enters AGREED with cause SETTLED, by SETTLED as by
ROUND_END (log 3), takes the label offset that most COUNTED entries report, and marks its holdover record valid. The
order inside the point (log 34) and a round end owed by a step (log 7) are the model's reading. -/
def Obligations.FourthSettledPointAgrees : Prop :=
  ∀ (dt : Elapsed) (s : State) (index : Option Nat), let u := s.elapse dt; let c := (u.signal index).closeTable
    let votes := fun x : Int => ((List.finRange 32).filter fun i =>
      (c.peers.entries[i]).state == .counted && (c.peers.entries[i]).labelOffset == some x).length
    let e := estimateOf c.deviationList
    let recorded := ((c.setStation { u.station with silenceCount := 0 }).examineLabels c.contributors).setAgreement
      { u.agreement with estimate := some e, spread := some (spreadOf c.deviationList), shortRounds := 0 }
    let w := recorded.applyRules e false 0
    let stepped := fun a : Nat => if e = 0 then a else clampUnits (a + e * 1000000000)
    u.roundEndDue = some index → u.station.state = .joining → u.link.owedRoundEnd = none →
    (c.contributors = [] → u.station.silenceCount + 1 < 16 →
      ∃ t, exec (.roundEnd dt) s = .next t ∧ t.station.state = .joining ∧ t.station.settleCount = 0 ∧
        t.discipline = u.discipline ∧
        t.agreement = { u.agreement with shortRounds := min 255 (u.agreement.shortRounds + 1) }) ∧
    (c.contributors ≠ [] → u.discipline.joiningStepTaken = false →
      exec (.roundEnd dt) s = .next (w.settleOwed 2) ∧ w.station = { u.station with silenceCount := 0 } ∧
      w.discipline.joiningStepTaken = true ∧ w.discipline.restart = u.config.restartRounds ∧
      w.discipline.coastMark = false ∧ w.discipline.rate = u.discipline.rate ∧
      (∀ a, u.discipline.clock = some a → w.discipline.clock = some (stepped a) ∧
        (e ≠ 0 → Reports u w (.stepped .joining e)))) ∧
    (c.contributors ≠ [] → u.discipline.joiningStepTaken = true → u.config.stepThreshold < e.natAbs →
      exec (.roundEnd dt) s = .next ((w.setStation { w.station with settleCount := 0 }).settleOwed 2) ∧
      w.station = { u.station with silenceCount := 0 } ∧ w.discipline.restart = u.config.restartRounds ∧
      w.discipline.coastMark = false ∧ w.discipline.rate = u.discipline.rate ∧
      (∀ a, u.discipline.clock = some a → w.discipline.clock = some (stepped a) ∧
        Reports u w (.stepped .estimate e))) ∧
    (c.contributors ≠ [] → u.discipline.joiningStepTaken = true → e.natAbs ≤ u.config.stepThreshold →
      ∃ t, exec (.roundEnd dt) s = .next t ∧ t.agreement.estimate = some e ∧
        t.agreement.shortRounds = 0 ∧ t.discipline.clock = u.discipline.clock ∧ t.peers = c.peers ∧
        t.source = u.source ∧
        (u.station.settleCount < 3 →
          t = w.setStation { u.station with silenceCount := 0, settleCount := u.station.settleCount + 1 } ∧
          t.gens = u.gens) ∧
        (3 ≤ u.station.settleCount →
          exec (.settled dt) s = .next t ∧ t.station.state = .agreed ∧
          Reports u t (.stateChanged .agreed .settled) ∧
          t.discipline = { w.discipline with holdoverValue := w.discipline.rate, holdoverValid := true } ∧
          t.agreement.disagreements = 0 ∧
          (∀ x, 0 < votes x → (∀ y, y ≠ x → votes y < votes x) → t.anchor.appliedAt ≠ some t.synthTime →
            t.anchor.labelOffset = x)))

/-- The merge test (R76, R77), and the outcome of finding this station in the minority in AGREED (R78, R61, R36): the
groups are exchanged, the estimate is recorded and not applied, the station enters JOINING with cause MERGE and raises
MERGED. -/
def Obligations.MinorityMerges : Prop :=
  (∀ s : State,
    (∀ i : Fin 32, i ∈ s.otherGroup ↔ (s.peers.entries[i]).state = .excluded ∧ (s.peers.entries[i]).delay.isSome = true ∧
      (s.peers.entries[i]).resultObservation = .wild ∧ (s.peers.entries[i]).resultDeviation.isSome = true ∧
      ((s.peers.entries[i]).peerState = some .agreed ∨ (s.peers.entries[i]).peerState = some .isolated)) ∧
    (s.minority = true ↔ s.otherGroup ≠ [] ∧
      (∀ i ∈ s.otherGroup, ∀ j ∈ s.otherGroup, ∀ x y, (s.peers.entries[i]).resultDeviation = some x →
        (s.peers.entries[j]).resultDeviation = some y → x - y ≤ 2 * s.config.window) ∧
      (s.contributors.length + 1 < s.otherGroup.length ∨
        (s.otherGroup.length = s.contributors.length + 1 ∧
          ∃ j ∈ s.otherGroup, j < s.config.slot ∧ ∀ i ∈ s.contributors, j < i)))) ∧
  (∀ (dt : Elapsed) (s : State) (index : Option Nat), let u := s.elapse dt; let c := (u.signal index).closeTable
    u.roundEndDue = some index → u.station.state = .agreed → u.link.owedRoundEnd = none →
    u.config.quorum ≤ c.contributors.length → c.minority = true →
    ∃ t, exec (.roundEnd dt) s = .next t ∧ t.station.state = .joining ∧ Reports u t (.stateChanged .joining .merge) ∧
      Reports u t (.merged c.otherGroup.length (c.contributors.length + 1)) ∧
      (∀ i ∈ c.otherGroup, (t.peers.entries[i]).state = .counted ∧ (t.peers.entries[i]).goodStreak = 0 ∧
        (t.peers.entries[i]).wildStreak = 0 ∧ (t.peers.entries[i]).absentStreak = 0) ∧
      (∀ i ∈ c.contributors, (t.peers.entries[i]).state = .excluded) ∧
      (∀ i : Fin 32, i ∉ c.otherGroup → i ∉ c.contributors → t.peers.entries[i] = c.peers.entries[i]) ∧
      t.agreement = ⟨some (estimateOf c.deviationList), some (spreadOf c.deviationList), 0, 0⟩ ∧
      t.discipline = { u.discipline with joiningStepTaken := false } ∧ t.source = u.source ∧ t.gens = u.gens)

/-- The agreement point in holdover: a short round in ISOLATED, and any in WITHDRAWING, corrects nothing and leaves the
state; the first with quorum in ISOLATED moves the station to AGREED with cause REGAINED, sets the restart counter and hands
the estimate on as one of an AGREED station, with steering, the disagreement count 1 where it is beyond M; within H and M
it is a restart slew (R37, R71, R74, R79, R91). The order inside the point (log 34) and a round end owed by a step (log 7)
are the model's reading. -/
def Obligations.HoldoverAgreementPoints : Prop :=
  ∀ (dt : Elapsed) (s : State) (index : Option Nat), let u := s.elapse dt; let c := (u.signal index).closeTable
    let e := estimateOf c.deviationList
    let x := c.examineLabels c.contributors
    let steering := x.steer c.contributors
    let r := ((x.raiseAll steering.2).setAgreement ⟨some e, some (spreadOf c.deviationList), 0, 0⟩).enterAgreed .regained
    let q := (r.setDiscipline { r.discipline with restart := u.config.restartRounds }).setAgreement
      { r.agreement with disagreements := if u.config.maxStep < e.natAbs then 1 else 0 }
    u.roundEndDue = some index → u.link.owedRoundEnd = none →
    (u.station.state = .withdrawing →
      ∃ t, exec (.roundEnd dt) s = .next t ∧ t.station = u.station ∧ t.discipline = u.discipline ∧
        t.anchor = u.anchor ∧ t.gens = u.gens ∧ t.peers = c.peers ∧
        (c.contributors.length < u.config.quorum →
          t.agreement = { u.agreement with shortRounds := min 255 (u.agreement.shortRounds + 1) }) ∧
        (u.config.quorum ≤ c.contributors.length →
          t.agreement = { u.agreement with
            estimate := some (estimateOf c.deviationList), spread := some (spreadOf c.deviationList), shortRounds := 0 })) ∧
    (u.station.state = .isolated →
      (c.contributors.length < u.config.quorum →
        ∃ t, exec (.roundEnd dt) s = .next t ∧ t.station = u.station ∧ t.discipline = u.discipline ∧
          t.gens = u.gens ∧ t.peers = c.peers ∧
          t.agreement = { u.agreement with shortRounds := min 255 (u.agreement.shortRounds + 1) }) ∧
      (u.config.quorum ≤ c.contributors.length →
        exec (.roundEnd dt) s = .next
          ((q.applyRules e (decide (u.config.maxStep < e.natAbs)) steering.1).settleOwed 2) ∧
        r.station.state = .agreed ∧ r.agreement = ⟨some e, some (spreadOf c.deviationList), 0, 0⟩ ∧
        r.discipline = { u.discipline with holdoverValue := u.discipline.rate, holdoverValid := true }) ∧
      (u.config.quorum ≤ c.contributors.length →
        e.natAbs ≤ u.config.stepThreshold → e.natAbs ≤ u.config.maxStep → 0 < u.config.restartRounds →
        ∃ t, exec (.roundEnd dt) s = .next t ∧ t.station.state = .agreed ∧
          Reports u t (.stateChanged .agreed .regained) ∧ t.discipline.clock = u.discipline.clock ∧
          t.discipline.restart = u.config.restartRounds - 1 ∧ t.discipline.coastMark = false ∧
          t.discipline.holdoverValid = true ∧ t.peers = c.peers ∧
          t.agreement = ⟨some (estimateOf c.deviationList), some (spreadOf c.deviationList), 0, 0⟩))

/-! ### The estimate and the clock -/

/-- Who contributes (R67 to R69), and the estimate of the deviation list (R72, R73). An entry contributes that is COUNTED,
shows AGREED, ISOLATED or FOUNDING, and closed its round with a deviation, GOOD, or in JOINING before the joining step WILD;
the list is the contributors' deviations and the own, which is 0. Sorted, the (n - 1) / 4 lowest and as many highest values
are discarded; the estimate is the mean of the kept values rounded toward zero, the spread their greatest minus least. -/
def Obligations.EstimateTrimmed : Prop :=
  (∀ s : State,
    (∀ i : Fin 32, let p := s.peers.entries[i]
      i ∈ s.contributors ↔ p.state = .counted ∧
        (p.peerState = some .agreed ∨ p.peerState = some .isolated ∨ p.peerState = some .founding) ∧
        p.resultDeviation.isSome = true ∧
        (p.resultObservation = .good ∨ (p.resultObservation = .wild ∧ s.station.state = .joining ∧
          s.discipline.joiningStepTaken = false))) ∧
    s.contributors.Nodup ∧
    s.deviationList.Perm (0 :: s.contributors.filterMap fun i => (s.peers.entries[i]).resultDeviation) ∧
    s.deviationList.length = s.contributors.length + 1) ∧
  ∀ devs : List Int, devs ≠ [] → ∃ low high : List Int,
    (low ++ keptValues devs ++ high).Perm devs ∧ (low ++ keptValues devs ++ high).Pairwise (· ≤ ·) ∧
    low.length = (devs.length - 1) / 4 ∧ high.length = (devs.length - 1) / 4 ∧
    estimateOf devs = Int.tdiv (keptValues devs).sum (keptValues devs).length ∧
    (∀ x ∈ keptValues devs, ∀ y ∈ keptValues devs, x - y ≤ spreadOf devs) ∧
    (∃ x ∈ keptValues devs, ∃ y ∈ keptValues devs, spreadOf devs = x - y)

/-- The discipline rules, row by row (R88 to R96): what an estimate does to the clock, the pending slew, the rate, the
holdover record, the counter and the marks, and what it raises. The steering term is added to the slew of every row but
the steps. The clock is kept within its range (R85). The steering term is what R108 and R109 make of the anchor offsets of
anchored contributors and the own valid one: 0 without any, 0 with ANCHORS_SPLIT or ANCHORS_FAR, else a 256th of the lower
median within the steer limit; a short round in AGREED slews by it alone (R94). That a slew of 0 in a row with an estimate
replaces the slew held, and the order inside the agreement point, are the model's reading (log 34). The agreement
points that hand an estimate to these rules are stated with AGREED, JOINING and ISOLATED. -/
def Obligations.DisciplineRows : Prop :=
  (∀ r : Int, bandOf r = if r.natAbs < 2000 then 0 else if r.natAbs < 10000 then 1 else if r.natAbs < 50000 then 2 else 3) ∧
  (∀ (e steer : Int) (marked : Bool) (s : State) (c : Nat), let t := s.applyRules e marked steer; let d := s.discipline
    let first := s.station.state = .joining ∧ d.joiningStepTaken = false
    let slewOf := fun x : Int =>
      if x = 0 then none else some (Slew.mk x 0 ((c / 1000000000 / 8000000 + 1) * 8000000 * 1000000000))
    let rate := max (-100000) (min 100000 (d.rate + Int.tdiv (e * 125) 64))
    let bound : Int := s.config.slewLimit * 8
    let smoothed := max (-bound) (min bound (Int.tdiv ((s.config.smoothing + 1) * e) 32))
    let stepped : Int → Option Nat := fun x => some (clampUnits (c + x * 1000000000))
    d.clock = some c →
    (first → t.discipline.joiningStepTaken = true ∧ t.discipline.restart = s.config.restartRounds ∧
      t.discipline.coastMark = false ∧ t.discipline.rate = d.rate ∧
      (e = 0 → t.discipline.clock = some c ∧ t.discipline.slew = none ∧ t.notices = s.notices) ∧
      (e ≠ 0 → t.discipline.clock = stepped e ∧ t.discipline.slew = none ∧ Reports s t (.stepped .joining e))) ∧
    (¬first → marked = true →
      t = s.setDiscipline { d with slew := if steer = 0 then d.slew else slewOf steer }) ∧
    (¬first → marked = false → s.config.stepThreshold < e.natAbs →
      t.discipline = { d with
        clock := stepped e, slew := none, restart := s.config.restartRounds, coastMark := false } ∧
      Reports s t (.stepped .estimate e)) ∧
    (¬first → marked = false → e.natAbs ≤ s.config.stepThreshold →
      (0 < d.restart ∨ d.coastMark = true →
        t.discipline = { d with
          restart := d.restart - 1, coastMark := false, slew := slewOf (e + steer), rate := rate,
          holdoverValue := rate, band := bandOf rate } ∧
        (rate = 100000 ∨ rate = -100000 → Reports s t (.rateLimit rate)) ∧
        (bandOf rate ≠ d.band → Reports s t (.rateBand (bandOf rate) (decide (d.band < bandOf rate))))) ∧
      (d.restart = 0 → d.coastMark = false → e.natAbs ≤ s.config.deadBand →
        t = s.setDiscipline { d with slew := if steer = 0 then d.slew else slewOf steer }) ∧
      (d.restart = 0 → d.coastMark = false → s.config.deadBand < e.natAbs →
        t.discipline = { d with
          slew := slewOf (smoothed + steer), rate := rate, holdoverValue := rate, band := bandOf rate } ∧
        (rate = 100000 ∨ rate = -100000 → Reports s t (.rateLimit rate)) ∧
        (bandOf rate ≠ d.band → Reports s t (.rateBand (bandOf rate) (decide (d.band < bandOf rate))))))) ∧
  (∀ (s : State) (contributors : List (Fin 32)), let x := s.steer contributors
    let offsets := (contributors.filterMap fun i =>
        if (s.peers.entries[i]).anchored = true then (s.peers.entries[i]).anchorOffset else none) ++
      (if s.anchor.valid = true then s.anchor.offset.toList else [])
    (offsets = [] → x = (0, [])) ∧
    (∀ (sorted : List Int) (least median greatest : Int), sorted.Perm offsets → sorted.Pairwise (· ≤ ·) →
      sorted.head? = some least → sorted[(sorted.length - 1) / 2]? = some median → sorted.getLast? = some greatest →
      (s.config.agreementLimit < greatest - least →
        x = (0, [.anchorsSplit offsets.length (greatest - least).toNat])) ∧
      (greatest - least ≤ s.config.agreementLimit → s.config.captureLimit < median.natAbs → x = (0, [.anchorsFar median])) ∧
      (greatest - least ≤ s.config.agreementLimit → median.natAbs ≤ s.config.captureLimit →
        x = (max (-(s.config.steerLimit : Int)) (min (s.config.steerLimit : Int) (Int.tdiv median 256)), [])))) ∧
  (∀ (s : State) (c : Nat), let x := s.steer s.contributors; let t := s.agreementPoint
    let slew := some (Slew.mk x.1 0 ((c / 1000000000 / 8000000 + 1) * 8000000 * 1000000000))
    s.discipline.clock = some c → s.station.state = .agreed → s.contributors.length < s.config.quorum →
    t.discipline = { s.discipline with slew := if x.1 = 0 then s.discipline.slew else slew } ∧
    ∀ n ∈ x.2, Reports s t n)

/-- A step of the clock at the instant it is taken (R87, R51, R107, R114, R2, R3, R16, R138): the slew is discarded, the
rate kept; the Link Unit follows the round of the new reading, and a step forward over round starts gives, in the states
that close rounds, a single round end for the round the reading left, where no later one stands; every raw lag and open
observation GOOD or WILD is cleared and the hold count set; the anchor offset falls by the amount; a pending label change
that is reached is applied; RUNNING generators rephase at their next boundary and ARMED ones choose again; a beacon may be
built where the new reading lies in the own window before the frame start, and departures up to the greatest reading shown
count as passed (R15; log 41); a read-back record that is not to be judged ends with the round (R2, R18; log 54), and the
frame on the line and the collision count are kept (R16). A step of 0 discards the slew, raises no notice and reaches no other block. The model keeps
that round end owed until the entry or agreement point that made the step is done, and the last round end does not fall
(log 7), and lowers the offset by the whole amount where the clock is held at an end of its range (log 11). -/
def Obligations.StepReachesEveryBlock : Prop :=
  (∀ (s : State) (o : StepOrigin), s.stepNoticed o 0 = s.stepClock 0 ∧ s.stepClock 0 = s.setDiscipline
    { s.discipline with slew := if s.discipline.clock.isSome = true then none else s.discipline.slew }) ∧
  (∀ (s : State) (amount : Int) (c : Nat), let t := s.stepClock amount
    let c' := clampUnits (c + amount * 1000000000); let a' := c' / 1000000000
    s.discipline.clock = some c → amount ≠ 0 →
    t.discipline = { s.discipline with clock := some c', slew := none } ∧
    t.peers.hold = 2 ∧
    (∀ i : Fin 32, (t.peers.entries[i]).rawLag = none ∧ (t.peers.entries[i]).lagAge = .stale ∧
      (t.peers.entries[i]).state = (s.peers.entries[i]).state ∧ (t.peers.entries[i]).tag = (s.peers.entries[i]).tag ∧
      (t.peers.entries[i]).delay = (s.peers.entries[i]).delay ∧
      (t.peers.entries[i]).resultObservation = (s.peers.entries[i]).resultObservation ∧
      (t.peers.entries[i]).resultDeviation = (s.peers.entries[i]).resultDeviation ∧
      ((s.peers.entries[i]).observation = .good ∨ (s.peers.entries[i]).observation = .wild →
        (t.peers.entries[i]).observation = .none ∧ (t.peers.entries[i]).deviation = none) ∧
      ((s.peers.entries[i]).observation ≠ .good → (s.peers.entries[i]).observation ≠ .wild →
        (t.peers.entries[i]).observation = (s.peers.entries[i]).observation)) ∧
    t.anchor.offset = s.anchor.offset.map (· - amount) ∧ t.anchor.valid = s.anchor.valid ∧
    t.anchor.streak = s.anchor.streak ∧ t.anchor.silence = s.anchor.silence ∧ t.anchor.label = s.anchor.label ∧
    (∀ x, s.anchor.change = some x → x.second * 1000000000 ≤ a' → t.anchor.labelOffset = x.offset ∧
      t.anchor.change = none ∧ Reports s t (.labelApplied x.offset x.second)) ∧
    (∀ x, s.anchor.change = some x → a' < x.second * 1000000000 → t.anchor.labelOffset = s.anchor.labelOffset ∧
      t.anchor.change = some x) ∧
    t.link.furthest = some (max (max (s.link.furthest.getD 0) (c / 1000000000)) a') ∧
    t.link.mode = s.link.mode ∧ t.link.transmitter = s.link.transmitter ∧ t.link.toJudge = s.link.toJudge ∧
    t.link.judged = s.link.judged ∧ t.link.collisions = s.link.collisions ∧
    (s.link.toJudge = none → c / 1000000000 / 8000000 ≠ a' / 8000000 → t.link.readBack = ⟨false, false, false, false⟩) ∧
    (s.link.toJudge ≠ none ∨ c / 1000000000 / 8000000 = a' / 8000000 → t.link.readBack = s.link.readBack) ∧
    (∀ b, s.link.built = some b → b.begun = true → t.link.built = some b) ∧
    (∀ b, s.link.built = some b → b.begun = false → a' < c / 1000000000 → t.link.built = none) ∧
    (∀ b, s.link.built = some b → b.begun = false →
      b.round * 8000000 + b.beacon.slot.val * 250000 + 20000 - 480 ≤ a' → t.link.built = none) ∧
    (t.link.buildOpen = true ↔ s.station.state.transmits = true ∧ s.source.coasting = false ∧
      s.config.slot.val * 250000 ≤ a' % 8000000 ∧ a' % 8000000 < s.config.slot.val * 250000 + 19520) ∧
    (let n := c / 1000000000 / 8000000; let n' := a' / 8000000
      let closes := s.station.state = .listen ∨ s.station.state.transmits = true
      let later := ∀ l, s.link.lastRoundEnd = some l → l + 1 < n'
      (n < n' → t.link.followed = some n') ∧ (n' ≤ n → t.link.followed = s.link.followed.map (min n')) ∧
      (n < n' → closes → later → t.link.owedRoundEnd = some n) ∧
      (n' ≤ n ∨ ¬closes ∨ ¬later → t.link.owedRoundEnd = s.link.owedRoundEnd) ∧
      t.link.lastRoundEnd = s.link.lastRoundEnd ∧
      (n < n' → s.station.state.transmits = true → later → let w := t.settleOwed 2
        w.link.owedRoundEnd = none ∧ w.roundEndDue = none ∧ w.discipline.clock = some c' ∧
        w.link.lastRoundEnd = some (max n (s.link.lastRoundEnd.getD n)) ∧
        w.link.arrivals = Vector.replicate 32 false ∧
        ∀ i : Fin 32, w.peers.entries[i] = (t.peers.entries[i]).close s.config.admission)) ∧
    (∀ i : Fin 4,
      ((s.gens[i]).state = .running → t.gens[i] = { s.gens[i] with rephasePending := true }) ∧
      ((s.gens[i]).state = .off ∨ (s.gens[i]).state = .stopping → t.gens[i] = s.gens[i]) ∧
      (∀ set, (s.gens[i]).state = .armed → (s.gens[i]).run = some set →
        ∃ nb, (t.gens[i]).next = some nb ∧ (t.gens[i]).state = .armed ∧ nb.time = set.boundaryTime nb.number ∧
          a' + 1000000 < nb.time ∧ ∀ k, k < nb.number → set.boundaryTime k ≤ a' + 1000000)) ∧
    t.station = s.station ∧ t.source = s.source ∧ t.agreement = s.agreement ∧ t.timecode = s.timecode ∧
    t.synthTime = s.synthTime)

/-- The elapsed time (R86, R93, R107, R122, R27): the clock runs on synthesizer time with the rate adjustment while the
synthesizer is LOCKED and on the RC at 62.5 ns a cycle, without it, while it is RELOCKING; a pending slew is spent in
proportion to the time that runs, and whole once the reading reaches the round start it ends at; the anchor offset held
falls by the whole ns of it applied; an invalid clock stays invalid. Passing the start of the own window opens an occasion
to build, unless the clock has passed the departure of its round before (R15). The timing mark of a frame takes mode,
coasting flag and reading as they were at its instant (R1, R4, R85). Whatever the synthesizer does, the RC times the
supervisor window, the unit lock timer and the lock time of STARTING (R118, R123, R24); each source enabled for the whole
window is counted (R118), and in LOCKING and RELOCKING the lock source's cycles (R117); a round of LISTEN without a clock
runs on synthesizer time (R3), and the silence time on the agreed clock (R106). The model's: synthesizer time while the
synthesizer is OFF or LOCKING (log 25), the silence time without an anchor too (log 33), counts that stop at their
greatest value (log 43), the unit of the clock, 10^-9 ns, and the rounding of the share toward zero (log 6), a slew
without room (log 10), the whole ns of the offset, which falls by them where the clock is held at its greatest value too
(log 11), how marks are remembered (log 4), the occasion to build (log 41). -/
def Obligations.ClockRunsOn : Prop :=
  (∀ u : State, u.markAt 0 = ⟨u.link.mode, u.source.coasting, u.reading, 0⟩) ∧
  (∀ (dt : Elapsed) (s : State), let t := s.elapse dt
    let base : Nat := if s.source.synth = .locked then (dt.synth * (1000000000 + s.discipline.rate)).toNat
      else dt.rc * 62500000000
    s.discipline.rate.natAbs ≤ 100000 → s.source.synth = .locked ∨ s.source.synth = .relocking →
    t.synthTime = s.synthTime + (if s.source.synth = .locked then 2 * dt.synth else 125 * dt.rc) ∧
    t.discipline.rate = s.discipline.rate ∧ t.station.state = s.station.state ∧ t.notices = s.notices ∧
    t.peers = s.peers ∧ t.agreement = s.agreement ∧ t.gens = s.gens ∧ t.timecode = s.timecode ∧ t.port = s.port ∧
    (∀ w, s.station.seed = some w → t.station.seed = some { w with elapsedRc := w.elapsedRc + dt.rc }) ∧
    (s.discipline.clock = none → t.discipline.clock = none) ∧
    (∀ c, s.discipline.clock = some c → s.discipline.slew = none →
      t.discipline.clock = some (clampUnits (c + base)) ∧ t.discipline.slew = none ∧ t.anchor.offset = s.anchor.offset) ∧
    (∀ c w, s.discipline.clock = some c → s.discipline.slew = some w →
      let left := w.amount * 1000000000 - w.applied
      let part := if (w.endAt : Int) ≤ c + base + left then left else Int.tdiv (left * base) (w.endAt - c - left)
      t.discipline.clock = some (clampUnits (c + base + part)) ∧
      t.discipline.slew = some { w with applied := w.applied + part } ∧
      t.anchor.offset = s.anchor.offset.map (· -
        (Int.tdiv (w.applied + part) 1000000000 - Int.tdiv w.applied 1000000000)) ∧
      (0 ≤ left → 0 ≤ part ∧ part ≤ left) ∧ (left ≤ 0 → left ≤ part ∧ part ≤ 0)) ∧
    (∀ c c', s.discipline.clock = some c → t.discipline.clock = some c' → let a := c / 1000000000; let a' := c' / 1000000000
      let start := s.config.slot.val * 250000
      (t.link.buildOpen = true ↔ s.link.buildOpen = true ∨
        (s.station.state.transmits = true ∧ s.source.coasting = false ∧ start ≤ a' % 8000000 ∧
          a' % 8000000 < start + 19520 ∧ (∀ r, s.link.furthest = some r → r < a' / 8000000 * 8000000 + start + 20000) ∧
          ∃ n, a < n * 8000000 + start ∧ n * 8000000 + start ≤ a'))) ∧
    (∀ since, s.source.synth = .locked → s.link.mode ≠ .off → 0 < since → since ≤ dt.synth →
      t.markAt since = ⟨s.link.mode, s.source.coasting, (s.elapse { dt with synth := dt.synth - since }).reading, since⟩)) ∧
  ∀ (dt : Elapsed) (s : State), let t := s.elapse dt
    let counted := fun (r : SourceRecord) (cycles : Nat) =>
      if r.enabled = true ∧ r.whole = true then { r with count := r.count + cycles } else r
    let cycles := fun x : Source => match x with | .xo => dt.xo | .ref => dt.ref
    let frameGoesOn := (∃ i : Fin 4, (s.gens[i]).state = .stopping) ∨ s.link.transmitter.isSome = true
    (∃ half : Nat, t.synthTime = s.synthTime + half ∧ t.link.listenRound = s.link.listenRound.map (· + half) ∧
      (s.source.synth = .locked → half = 2 * dt.synth) ∧ (s.source.synth = .relocking → half = 125 * dt.rc) ∧
      (s.source.synth = .off ∨ s.source.synth = .locking →
        (frameGoesOn → half = 125 * dt.rc) ∧ (¬frameGoesOn → half = 0))) ∧
    t.station = { s.station with
      seed := s.station.seed.map fun w => { w with elapsedRc := w.elapsedRc + dt.rc }
      lockTime := s.station.lockTime.map (· + dt.rc) } ∧
    t.source = { s.source with
      xo := counted s.source.xo dt.xo, ref := counted s.source.ref dt.ref, lockCount := t.source.lockCount
      windowTimer := s.source.windowTimer + dt.rc, unitTimer := s.source.unitTimer.map (· + dt.rc) } ∧
    (∀ x, s.source.lockSource = some x → s.source.synth = .locking ∨ s.source.synth = .relocking →
      t.source.lockCount = min 2048 (s.source.lockCount + cycles x)) ∧
    (s.source.lockSource = none ∨ s.source.synth = .off ∨ s.source.synth = .locked →
      t.source.lockCount = s.source.lockCount) ∧
    (s.discipline.clock = none → t.anchor = s.anchor ∧ t.discipline = s.discipline) ∧
    (∀ c c', s.discipline.clock = some c → t.discipline.clock = some c' →
      t.anchor = { s.anchor with
        offset := t.anchor.offset, silence := min (3000000000 * 1000000000) (s.anchor.silence + (c' - c)) } ∧
      t.link.furthest = some (max (s.link.furthest.getD 0) (c' / 1000000000))) ∧
    t.link = { s.link with
      listenRound := t.link.listenRound, buildOpen := t.link.buildOpen, furthest := t.link.furthest, trail := t.link.trail }

/-! ### Generators and timecode -/

/-- Boundary times, sequence lengths and frame bounds (R132, R133, R137): T_k is the whole part of k * q * 10^9 / p plus
the delay, and the first boundary at or after an instant is the least such k; the sequence length is the least number of
samples that spans whole frames of the paired rate; the shortest frame is the least whole ns not below half the period,
and the longest the greatest below one and a half of it. A boundary of an AUDIO generator is a marker sample where its
number is a whole multiple of the sequence length, none of a VIDEO generator is (R133), and the pin stays high for 2,000
ns, half or, at a marker sample, a quarter of the frame's length (R134). Entry into AGREED arms every enabled generator
that is OFF, its first boundary the least more than 1 ms ahead (R135); entry into STANDBY other than by a reset, where it
abandons no relock (R144; log 53), leaves a generator set to HOLD as it is, and of one set to STOP ends an ARMED run at once
and a RUNNING one at its next boundary (R142). -/
def Obligations.BoundaryTimesAndBounds : Prop :=
  (∀ (g : GenSettings) (k : Nat), g.boundaryTime k = k * g.rate.q * 1000000000 / g.rate.p + g.delay) ∧
  (∀ (g : GenSettings) (x : Int) (k : Nat), k < g.firstAtOrAfter x ↔ (g.boundaryTime k : Int) < x) ∧
  (∀ rate paired : RateCode, rate.kind = .audio → 0 < sequenceLength rate paired ∧
    rate.p * paired.q ∣ sequenceLength rate paired * paired.p) ∧
  (∀ (rate paired : RateCode) (m : Nat), rate.kind = .audio → 0 < m → rate.p * paired.q ∣ m * paired.p →
    sequenceLength rate paired ≤ m) ∧
  (∀ r : RateCode, (r.q * 1000000000 ≤ 2 * r.p * r.shortest ∧ 2 * r.p * (r.shortest - 1) < r.q * 1000000000) ∧
    (2 * r.p * r.longest < 3 * r.q * 1000000000 ∧ 3 * r.q * 1000000000 ≤ 2 * r.p * (r.longest + 1))) ∧
  (∀ (g : GenSettings) (k len : Nat),
    (g.kind = .video → g.marker k = false ∧ g.pulseNs k len = 2000) ∧
    (∀ paired, g.kind = .audio → g.paired = some paired →
      (sequenceLength g.rate paired ∣ k → g.marker k = true ∧ g.pulseNs k len = len / 4) ∧
      (¬sequenceLength g.rate paired ∣ k → g.marker k = false ∧ g.pulseNs k len = len / 2))) ∧
  (∀ (s : State) (cause : Cause) (a : Nat) (i : Fin 4), let t := s.enterAgreed cause; let set := s.config.gens[i]
    let g := s.gens[i]
    s.reading = some a →
    (set.enable = true → g.state = .off → ∃ nb,
      t.gens[i] = { g with
        state := .armed, frame := none, lastBoundary := none, next := some nb, rephasePending := false, run := some set } ∧
      nb.time = set.boundaryTime nb.number ∧ a + 1000000 < nb.time ∧
      (∀ k, k < nb.number → set.boundaryTime k ≤ a + 1000000) ∧
      nb.instant = s.synthTime +
        2 * (Int.tdiv (((nb.time : Int) - a) * 1000000000) (1000000000 + s.discipline.rate)).toNat) ∧
    (set.enable = false ∨ g.state ≠ .off → t.gens[i] = g)) ∧
  (∀ (s : State) (cause : Cause) (i : Fin 4), let t := s.enterStandby cause; let how := (s.config.gens[i]).onWithdraw
    let g := s.gens[i]
    s.source.synth ≠ .relocking ∨ (s.station.state ≠ .starting ∧
      (cause ≠ .withdrawn ∨ (s.station.state ≠ .listen ∧ s.station.state ≠ .stalled))) →
    (how = .hold ∨ g.state = .off ∨ g.state = .stopping → t.gens[i] = g) ∧
    (how = .stop → g.state = .armed → t.gens[i] = { g with state := .off, next := none, pinHighUntil := none }) ∧
    (how = .stop → g.state = .running → t.gens[i] = { g with state := .stopping }))

/-- GENERATOR_BOUNDARY (R136, R137, R139, R143, R146, R150): an ordinary boundary takes the number it was scheduled with
and schedules the next from the agreed reading; a rephase boundary takes the number before the smallest whose candidate
length reaches the shortest frame, and raises REPHASED; the boundary of a STOPPING generator ends its run. No other
generator changes. A boundary of the bound generator forms the word of its count since label midnight by the label offset
in force (R110, R151), packed as R182 has it and sent bit 31 first (R157), and raises TIMECODE_HELD where a hold begins
(R155). Where none is due only time passes (log 2), and a rephase to a number below 0 is left open (log 12). The model's:
what the last boundary of a run latches (log 35) and keeps (log 46), and a word timed in synthesizer time (log 24). -/
def Obligations.GeneratorBoundariesTaken : Prop :=
  ∀ (dt : Elapsed) (i : Fin 4) (s : State) (set : GenSettings) (nb : NextBoundary), let u := s.elapse dt
    let g := u.gens[i]
    let converted := fun x : Int => Int.tdiv (x * 1000000000) (1000000000 + u.discipline.rate)
    let sent := fun (t : State) (n time : Nat) (word : Option (BitVec 32)) =>
      (u.timecode.binding ≠ some i → word = none ∧ t.timecode = u.timecode) ∧
      (u.timecode.binding = some i → ∃ w, word = some w ∧ u.WordOf set n time w ∧ t.timecode.lastWord = some w ∧
        t.timecode.hold = w.getLsbD 3 ∧ t.timecode.Sends w u.synthTime ∧ t.timecode.binding = u.timecode.binding ∧
        (w.getLsbD 3 = true → u.timecode.hold = false →
          Reports u t (.timecodeHeld i (set.count (u.anchor.offsetAt time) n time))))
    g.next = some nb → g.run = some set → u.discipline.rate.natAbs ≤ 100000 →
    (u.synthTime < nb.instant → exec (.generatorBoundary dt i) s = .next u) ∧
    (∀ a, nb.instant ≤ u.synthTime → u.reading = some a → g.state = .armed ∨ g.state = .running →
      (g.rephasePending = false →
        ∃ t len word, exec (.generatorBoundary dt i) s = .next t ∧
          t.gens[i] = { g with
            state := .running, frame := some nb.number, lastBoundary := some nb.time
            next := some ⟨nb.number + 1, set.boundaryTime (nb.number + 1), u.synthTime + 2 * len⟩
            latched := some ⟨nb.number, nb.time, .running, set.marker nb.number, word⟩
            pinHighUntil := some (u.synthTime + 2 * set.pulseNs nb.number len) } ∧
          len = max set.rate.shortest
            (min set.rate.longest (converted ((set.boundaryTime (nb.number + 1) : Int) - a)).toNat) ∧
          (∀ j : Fin 4, j ≠ i → t.gens[j] = u.gens[j]) ∧
          sent t nb.number nb.time word ∧
          (u.timecode.binding ≠ some i ∨ t.timecode.hold = false ∨ u.timecode.hold = true → t.notices = u.notices) ∧
          t = ((u.setGens t.gens).setTimecode t.timecode).setNotices t.notices) ∧
      (∀ k, g.rephasePending = true → (set.rate.shortest : Int) ≤ converted ((set.boundaryTime (k + 1) : Int) - a) →
        converted ((set.boundaryTime k : Int) - a) < set.rate.shortest →
        ∃ t len word, exec (.generatorBoundary dt i) s = .next t ∧
          t.gens[i] = { g with
            state := .running, frame := some k, lastBoundary := some (set.boundaryTime k)
            next := some ⟨k + 1, set.boundaryTime (k + 1), u.synthTime + 2 * len⟩
            rephasePending := false, rephaseCount := min 65535 (g.rephaseCount + 1)
            latched := some ⟨k, set.boundaryTime k, .running, set.marker k, word⟩
            pinHighUntil := some (u.synthTime + 2 * set.pulseNs k len) } ∧
          len = min set.rate.longest (converted ((set.boundaryTime (k + 1) : Int) - a)).toNat ∧
          sent t k (set.boundaryTime k) word ∧
          Reports u t (.rephased i ((k : Int) - nb.number) (decide (k < nb.number))) ∧
          (∀ j : Fin 4, j ≠ i → t.gens[j] = u.gens[j]))) ∧
    (nb.instant ≤ u.synthTime → g.state = .stopping →
      (u.station.state ≠ .agreed ∨ (u.config.gens[i]).enable = false →
        exec (.generatorBoundary dt i) s = .next (u.setGens (put u.gens i { g with
          state := .off, next := none, latched := some ⟨nb.number, nb.time, .off, set.marker nb.number, none⟩ }))) ∧
      (∀ a, u.station.state = .agreed → (u.config.gens[i]).enable = true → u.reading = some a →
        ∃ t first, exec (.generatorBoundary dt i) s = .next t ∧ (t.gens[i]).state = .armed ∧
          (t.gens[i]).run = some u.config.gens[i] ∧ (t.gens[i]).next = some first ∧
          a + 1000000 < (u.config.gens[i]).boundaryTime first.number))

/-- The timecode numberings (R152 to R155): at an integer rate R the number is the count in frames of 1/R s, and at the
short-day rates as at 24 and 48, the last of a day 23:58:33 and a frame; at the drop-frame rates each count of a day has a
number that drops 2 or 4 frame numbers in nine minutes of ten and gives the count back, and a count at or above the day's
total holds the last number. -/
def Obligations.TimecodeNumbersGiveCounts : Prop :=
  (∀ (r : RateCode) (f c : Nat),
    (r, f) ∈ [(RateCode.film23, 24), (.film24, 24), (.v25, 25), (.v30, 30), (.v47, 48), (.v48, 48), (.v50, 50), (.v60, 60)] →
    c < 86400 * f →
    let t := r.number c
    t.hours < 24 ∧ t.minutes < 60 ∧ t.seconds < 60 ∧ t.frames < f ∧ t.drop = false ∧ t.hold = false ∧
    ((t.hours * 60 + t.minutes) * 60 + t.seconds) * f + t.frames = c) ∧
  ([2071527, 2071528].map RateCode.film23.number = [⟨23, 58, 33, 15, false, false⟩, ⟨23, 58, 33, 16, false, false⟩] ∧
    [4143055, 4143056].map RateCode.v47.number = [⟨23, 58, 33, 31, false, false⟩, ⟨23, 58, 33, 32, false, false⟩]) ∧
  (∀ (r : RateCode) (f skip total c : Nat),
    (r, f, skip, total) ∈ [(RateCode.v29, 30, 2, 2589408), (.v59, 60, 4, 5178816)] →
    let t := r.number c
    (c < total → t.hours < 24 ∧ t.minutes < 60 ∧ t.seconds < 60 ∧ t.frames < f ∧ t.drop = true ∧ t.hold = false ∧
      (t.minutes % 10 ≠ 0 → t.seconds = 0 → skip ≤ t.frames) ∧
      ((t.hours * 60 + t.minutes) * 60 + t.seconds) * f + t.frames =
        c + skip * (t.hours * 60 + t.minutes - (t.hours * 60 + t.minutes) / 10)) ∧
    (total ≤ c → t = ⟨23, 59, 59, f - 1, true, true⟩))

/-! ### Anchors, and events of time -/

/-- ANCHOR_PULSE, row by row (R103, R105): ignored, captured unlabelled, or labelled, in which case the label is
consumed, the silence time restarts, the offset takes the sample, and streak and validity follow the comparison with the
offset held. -/
def Obligations.AnchorPulseTaken : Prop :=
  ∀ (dt : Elapsed) (s : State), let u := s.elapse dt
    (u.configured = false ∨ u.config.anchorEnabled = false ∨ u.reading = none →
      exec (.anchorPulse dt) s = .next u) ∧
    (∀ a, u.configured = true → u.config.anchorEnabled = true → u.reading = some a →
      (u.anchor.label = none → exec (.anchorPulse dt) s = .next (u.raise (.anchorUnlabelled a))) ∧
      (∀ second, u.anchor.label = some second → let sample : Int := (second : Int) * 1000000000 - a
        ∃ t, exec (.anchorPulse dt) s = .next t ∧ t = (u.setAnchor t.anchor).setNotices t.notices ∧
          t.anchor.label = none ∧ t.anchor.silence = 0 ∧ t.anchor.offset = some sample ∧
          t.anchor.labelOffset = u.anchor.labelOffset ∧ t.anchor.change = u.anchor.change ∧
          (u.anchor.offset = none → t.anchor.streak = 1 ∧ t.anchor.valid = u.anchor.valid) ∧
          (∀ held, u.anchor.offset = some held → (sample - held).natAbs ≤ 1000 →
            t.anchor.streak = min 3 (u.anchor.streak + 1) ∧
            (t.anchor.valid = true ↔ u.anchor.valid = true ∨ 2 ≤ u.anchor.streak) ∧
            (u.anchor.valid = false → 2 ≤ u.anchor.streak → Reports u t (.anchorChanged true .streak))) ∧
          (∀ held, u.anchor.offset = some held → 1000 < (sample - held).natAbs →
            t.anchor.streak = 1 ∧ t.anchor.valid = false ∧
            (u.anchor.valid = true → Reports u t (.anchorChanged false .tolerance)) ∧
            (u.anchor.valid = false → t.notices = u.notices))))

/-- The events that come when a length of time has run: LABEL_APPLIED (R114), ANCHOR_SILENCE (R106), SLEW_SPENT (R93),
PIN_LOW_AGAIN (R134) and TIMECODE_WORD_SENT (R157) do what the rule says once their instant is reached; before it only
time passes (log 2). -/
def Obligations.TimedEventsTaken : Prop :=
  ∀ (dt : Elapsed) (s : State), let u := s.elapse dt
    (∀ x a, u.anchor.change = some x → u.reading = some a →
      (x.second * 1000000000 ≤ a →
        exec (.labelApplied dt) s = .next ((u.setAnchor { u.anchor with
          labelOffset := x.offset, change := none, appliedAt := some u.synthTime }).raise
            (.labelApplied x.offset x.second))) ∧
      (a < x.second * 1000000000 → exec (.labelApplied dt) s = .next u)) ∧
    (u.reading.isSome = true → 3000000000 * 1000000000 ≤ u.anchor.silence →
      ∃ t, exec (.anchorSilence dt) s = .next t ∧
        t = (u.setAnchor { u.anchor with offset := none, streak := 0, valid := false }).setNotices t.notices ∧
        (u.anchor.valid = true → Reports u t (.anchorChanged false .silence)) ∧
        (u.anchor.valid = false → t.notices = u.notices)) ∧
    (u.anchor.silence < 3000000000 * 1000000000 → exec (.anchorSilence dt) s = .next u) ∧
    (∀ c w, u.discipline.clock = some c → u.discipline.slew = some w →
      (w.endAt ≤ c → exec (.slewSpent dt) s = .next (u.setDiscipline { u.discipline with slew := none })) ∧
      (c < w.endAt → exec (.slewSpent dt) s = .next u)) ∧
    (∀ (i : Fin 4) (n : Nat), (u.gens[i]).pinHighUntil = some n →
      (n ≤ u.synthTime →
        ∃ t, exec (.pinLowAgain dt i) s = .next t ∧ t = u.setGens t.gens ∧
          t.gens[i] = { u.gens[i] with pinHighUntil := none } ∧ ∀ j : Fin 4, j ≠ i → t.gens[j] = u.gens[j]) ∧
      (u.synthTime < n → ∃ t, exec (.pinLowAgain dt i) s = .next t ∧ t = u.setGens t.gens ∧
        ∀ j : Fin 4, t.gens[j] = u.gens[j])) ∧
    (∀ w, u.timecode.output = some w →
      (w.doneAt ≤ u.synthTime →
        exec (.timecodeWordSent dt) s = .next (u.setTimecode { u.timecode with output := none })) ∧
      (u.synthTime < w.doneAt → exec (.timecodeWordSent dt) s = .next (u.setTimecode u.timecode)))

/-! ### Sources -/

/-- SUPERVISOR_WINDOW_END (R118 to R122, R125): each source enabled for the whole window is judged by its count, runs and
health follow and are reported, and the next window begins; then the failover rule. A failover moves the selection to the
other source and the synthesizer follows it: from LOCKED it relocks with the coasting flag, the coast mark and the beacon
cut off (R17, R98), a lock or relock starts again, and in STANDBY R125 decides. Where the rule finds no source it is a
source loss: STALLED with cause SOURCE from a state that is not STANDBY, its Peer Table cleared (R62), generators and
timecode cut (R144, R157), and in STANDBY the synthesizer stops and the clock is lost, which ends every run (R144) and
clears the anchor (R106). In STANDBY with a selected source that is not UNHEALTHY a synthesizer that is OFF begins a lock
where early activation or a valid clock calls for one (R125). The model's: the lock count of a stopped lock is kept (log
51), before the window is full only time passes (log 2), time beyond it counts for the next (log 43), which source is the
selected one of the notices (log 27), and the timer of a lock that starts again (log 48). -/
def Obligations.SupervisorWindowJudges : Prop :=
  ∀ (dt : Elapsed) (s : State), let u := s.elapse dt; let v := u.source.windowEnd
    let x := u.source.selected; let y := u.source.selected.other
    let unfit := (v.get x).health = .unhealthy
    let lost := unfit ∧ ((v.get y).enabled = false ∨ (v.get y).health ≠ .healthy)
    let fails := fun z : Source => (u.source.get z).health ≠ .unhealthy ∧ (v.get z).health = .unhealthy
    let restored := fun z : Source => (u.source.get z).health = .unhealthy ∧ (v.get z).health = .healthy
    let runs := u.config.earlyActivation = true ∨ u.discipline.clock.isSome = true
    (u.source.windowTimer < 32000 → exec (.supervisorWindowEnd dt) s = .next u) ∧
    v.windowTimer = u.source.windowTimer - 32000 ∧ v.selected = u.source.selected ∧
    (∀ x : Source, let r := u.source.get x; let q := v.get x
      let good := match x with
        | .xo => 49500 ≤ r.count ∧ r.count ≤ 50500
        | .ref => 19800 ≤ r.count ∧ r.count ≤ 20200
      q.enabled = r.enabled ∧ q.count = 0 ∧ q.whole = r.enabled ∧
      (r.enabled = true → r.whole = true →
        (good → q.good = min 16 (r.good + 1) ∧ q.bad = 0) ∧ (¬good → q.good = 0 ∧ q.bad = min 2 (r.bad + 1)) ∧
        (r.health = .learning → q.health = if q.bad = 2 then .unhealthy else if q.good = 16 then .healthy else .learning) ∧
        (r.health = .healthy → q.health = if q.bad = 2 then .unhealthy else .healthy) ∧
        (r.health = .unhealthy → q.health = if q.good = 16 then .healthy else .unhealthy))) ∧
    (32000 ≤ u.source.windowTimer →
      ∃ t, exec (.supervisorWindowEnd dt) s = .next t ∧ t.source.xo = v.xo ∧ t.source.ref = v.ref ∧
        t.source.windowTimer = v.windowTimer ∧
        (unfit → ¬lost → t.source.selected = y) ∧ (¬unfit ∨ lost → t.source.selected = x) ∧
        (¬unfit → u.station.state ≠ .standby → u.station.state ≠ .stalled →
          t = (u.setSource v).setNotices t.notices) ∧
        (unfit → ¬lost → u.station.state ≠ .stalled → u.station.state ≠ .standby ∨ runs →
          t.station = u.station ∧ t.peers = u.peers ∧ t.agreement = u.agreement ∧ t.anchor = u.anchor ∧
          t.gens = u.gens ∧ t.timecode = u.timecode ∧
          (u.source.synth = .locked → u.source.lockSource = some x →
            t.source = { v with
              selected := y, synth := .relocking, lockSource := some y, lockCount := 0, unitTimer := some 0, coasting := true } ∧
            t.discipline = { u.discipline with coastMark := true } ∧
            t.link = { u.link with built := none, transmitter := none, buildOpen := false }) ∧
          (u.source.synth = .relocking → u.source.lockSource = some x →
            t.source = { v with selected := y, lockSource := some y, lockCount := 0, unitTimer := some 0 } ∧
            t.discipline = u.discipline ∧ t.link = u.link) ∧
          (u.source.synth = .locking → u.source.lockSource = some x →
            t.source = { v with
              selected := y, lockSource := some y, lockCount := 0, unitTimer := u.source.unitTimer.map fun _ => 0 } ∧
            t.discipline = u.discipline ∧ t.link = u.link) ∧
          (u.source.synth = .off → t.discipline = u.discipline ∧ t.link = u.link ∧
            (u.station.state ≠ .standby → t.source = { v with selected := y }) ∧
            (u.station.state = .standby → t.source = { v with
              selected := y, synth := .locking, lockSource := some y, lockCount := 0, unitTimer := some 0 }))) ∧
        (unfit → ¬lost → u.station.state = .standby → ¬runs →
          t.station = u.station ∧ t.source.synth = .off ∧ t.source.lockSource = none ∧ t.source.coasting = false ∧
          t.source.unitTimer = none) ∧
        (unfit → ¬lost → u.station.state = .stalled → u.source.synth = .off →
          t.station.state = .starting ∧ Reports u t (.stateChanged .starting .recovered) ∧ t.station.lockTime = some 0 ∧
          t.source = { v with
            selected := y, synth := .locking, lockSource := some y, lockCount := 0, unitTimer := none }) ∧
        (lost → u.station.state ≠ .standby → u.station.state ≠ .stalled →
          t.station.state = .stalled ∧ t.station.faultReason = .cause .source ∧ t.discipline.clock = none ∧
          Reports u t (.stateChanged .stalled .source) ∧ t.source.synth = .off ∧ t.link.mode = .off ∧
          t.discipline.rate = u.discipline.rate ∧ t.agreement = ⟨none, none, 0, 0⟩ ∧
          (t.link.built = none ∧ t.link.transmitter = none ∧ t.source.lockSource = none ∧ t.source.coasting = false ∧
            t.discipline.slew = none ∧ t.discipline.coastMark = false) ∧
          (t.anchor.valid = false ∧ t.anchor.offset = none ∧ t.anchor.change = none ∧
            (u.anchor.valid = true → Reports u t (.anchorChanged false .clock))) ∧
          (∀ i : Fin 32, t.peers.entries[i] =
            if (u.peers.entries[i]).state = .self then u.peers.entries[i] else PeerEntry.empty) ∧
          t.peers.hold = 0 ∧ t.timecode = { u.timecode with output := none } ∧
          (∀ i : Fin 4, (t.gens[i]).state = .off ∧ (t.gens[i]).next = none ∧ (t.gens[i]).pinHighUntil = none)) ∧
        (lost → u.station.state = .standby →
          t.station = u.station ∧ t.discipline.clock = none ∧
          t.source = { v with synth := .off, lockSource := none, unitTimer := none, coasting := false } ∧
          (u.discipline.clock.isSome = true → LosesClock u t) ∧
          (u.discipline.clock = none → t.gens = u.gens ∧ t.anchor = u.anchor)) ∧
        (¬unfit → u.station.state = .standby →
          t = (u.setSource t.source).setNotices t.notices ∧
          (runs → u.source.synth = .off → t.source = { v with
            synth := .locking, lockSource := some x, lockCount := 0, unitTimer := some 0 }) ∧
          (runs → u.source.synth ≠ .off → t.source = v) ∧
          (¬runs → t.source = { v with synth := .off, lockSource := none, unitTimer := none, coasting := false })) ∧
        (u.station.state = .stalled → ¬unfit ∨ lost → (v.get x).health ≠ .healthy →
          t = (u.setSource v).setNotices t.notices) ∧
        (u.station.state = .stalled → (v.get x).health = .healthy →
          t.station.state = .starting ∧ Reports u t (.stateChanged .starting .recovered)) ∧
        (fails x → lost → Reports u t (.sourceFailed x .windows .lost)) ∧
        (fails x → ¬lost → Reports u t (.sourceFailed x .windows .switched)) ∧
        (fails y → ¬fails x → Reports u t (.sourceFailed y .windows .unselected)) ∧
        (restored x → Reports u t (.sourceRestored x true)) ∧
        (restored y → ¬restored x → Reports u t (.sourceRestored y false)))

/-- The end of a lock (R24, R117, R123, R124, R129): SYNTHESIZER_LOCKED at 2,048 cycles, which moves STARTING to LISTEN;
NO_LOCK at 10 ms of STARTING, 160,000 cycles of the RC (log 23); LOCK_TIMEOUT at 10 ms of the unit lock timer, which marks the
source UNHEALTHY, stops the synthesizer and stalls the station, from where a HEALTHY other source starts it again; in STANDBY
the station stays and a valid clock is lost. A relock abandoned by NO_LOCK loses the clock too. The clock lost ends every run
(R144) and clears the anchor (R106); and R125 begins a lock anew where early activation or a clock kept calls for one and the
selected source is not UNHEALTHY. Before its instant each lets only time pass (log 2); the lock count of a stopped lock is
kept (log 51). -/
def Obligations.LocksEnd : Prop :=
  ∀ (dt : Elapsed) (s : State), let u := s.elapse dt
    let locked := { u.source with synth := .locked, coasting := false, unitTimer := none }
    (u.source.lockCount < 2048 ∨ u.source.synth = .off ∨ u.source.synth = .locked →
      exec (.synthesizerLocked dt) s = .next u) ∧
    (u.source.synth = .locking ∨ u.source.synth = .relocking → 2048 ≤ u.source.lockCount →
      (u.station.state ≠ .starting → exec (.synthesizerLocked dt) s = .next (u.setSource locked)) ∧
      (u.station.state = .starting →
        ∃ t, exec (.synthesizerLocked dt) s = .next t ∧ t.source = locked ∧ t.station.state = .listen ∧
          Reports u t (.stateChanged .listen .locked) ∧ t.station.lockTime = none ∧
          t.station.listenTimer = some (4 + u.config.slot.val + u.station.extraListen) ∧ t.link.mode = .openMode ∧
          t.discipline = u.discipline ∧ t.peers = u.peers ∧ t.anchor = u.anchor ∧ t.gens = u.gens)) ∧
    (u.station.state ≠ .starting ∨ u.station.lockTime = none → exec (.noLock dt) s = .next u) ∧
    (∀ n, u.station.lockTime = some n → n < 160000 → exec (.noLock dt) s = .next u) ∧
    (∀ n x, u.station.state = .starting → u.station.lockTime = some n → 160000 ≤ n → u.source.lockSource = some x →
      ∃ t, exec (.noLock dt) s = .next t ∧ t.station.state = .standby ∧ t.station.faultReason = .cause .noLock ∧
        Reports u t (.stateChanged .standby .noLock) ∧ Reports u t (.lockFailed x) ∧ t.station.lockTime = none ∧
        t.discipline.rate = u.discipline.rate ∧ t.peers = u.peers ∧
        (let kept := u.discipline.clock.isSome = true ∧ u.source.synth ≠ .relocking
         let runs := u.config.earlyActivation = true ∨ kept
         let fit := (u.source.get u.source.selected).health ≠ .unhealthy
         let off := { u.source with synth := .off, lockSource := none, unitTimer := none, coasting := false }
         (u.source.synth = .relocking → u.discipline.clock.isSome = true → LosesClock u t) ∧
         (u.source.synth ≠ .relocking → t.discipline = u.discipline ∧ t.anchor = u.anchor) ∧
         (runs → fit → t.source = { off with
           synth := .locking, lockSource := some u.source.selected, lockCount := 0, unitTimer := some 0 }) ∧
         (¬runs ∨ ¬fit → t.source = off))) ∧
    (u.source.unitTimer = none ∨ u.source.synth = .off ∨ u.source.synth = .locked →
      exec (.lockTimeout dt) s = .next u) ∧
    (∀ n, u.source.unitTimer = some n → n < 160000 → exec (.lockTimeout dt) s = .next u) ∧
    (∀ n, u.source.unitTimer = some n → 160000 ≤ n → u.source.synth = .locking ∨ u.source.synth = .relocking →
      u.source.lockSource = some u.source.selected →
      let x := u.source.selected; let other := u.source.get x.other
      ∃ t, exec (.lockTimeout dt) s = .next t ∧
        (t.source.get x).health = .unhealthy ∧ (t.source.get x).bad = 2 ∧ (t.source.get x).good = 0 ∧
        t.source.get x.other = other ∧ t.source.coasting = false ∧ t.discipline.clock = none ∧
        (u.station.state ≠ .standby → other.enabled = false ∨ other.health ≠ .healthy →
          t.station.state = .stalled ∧ t.station.faultReason = .cause .source ∧ t.source.synth = .off ∧
          t.source.lockSource = none ∧
          ((u.source.get x).health ≠ .unhealthy → Reports u t (.sourceFailed x .lock .lost))) ∧
        (u.station.state ≠ .standby → other.enabled = true → other.health = .healthy →
          t.station.state = .starting ∧ t.source.selected = x.other ∧ t.source.synth = .locking ∧
          t.source.lockSource = some x.other ∧ Reports u t (.stateChanged .starting .recovered) ∧
          ((u.source.get x).health ≠ .unhealthy → Reports u t (.sourceFailed x .lock .switched))) ∧
        (u.station.state = .standby → t.station = u.station ∧
          (u.discipline.clock.isSome = true → LosesClock u t) ∧
          (u.discipline.clock = none → t.gens = u.gens ∧ t.anchor = u.anchor) ∧
          (other.enabled = true → other.health = .healthy → t.source.selected = x.other ∧
            ((u.source.get x).health ≠ .unhealthy → Reports u t (.sourceFailed x .lock .switched)) ∧
            (u.config.earlyActivation = true → t.source.synth = .locking ∧ t.source.lockSource = some x.other ∧
              t.source.lockCount = 0 ∧ t.source.unitTimer = some 0) ∧
            (u.config.earlyActivation = false → t.source.synth = .off ∧ t.source.lockSource = none ∧
              t.source.unitTimer = none)) ∧
          (other.enabled = false ∨ other.health ≠ .healthy → t.source.selected = x ∧ t.source.synth = .off ∧
            t.source.lockSource = none ∧ t.source.unitTimer = none ∧
            ((u.source.get x).health ≠ .unhealthy → Reports u t (.sourceFailed x .lock .lost)))))

/-! ### What holds in every state that a step keeps -/

/-- A beacon that can be sent is read back from its bytes, every field at every value its encoding admits (R8, R174 to
R176). -/
def Obligations.BeaconsReadBack : Prop := ∀ b : Beacon, b.Fits → parseBeacon b.bytes = some b

/-- Every step keeps the rate adjustment and the holdover value within ±100,000 ppb with the band that of the rate (R95,
R96), and keeps every pending record in its place: of its kind, of a kind enabled, with a repeat count of 0 to 255 (R166,
R170). -/
def Obligations.RateAndNoticesKept : Prop :=
  (∀ s t : State, s.discipline.RateOk → step s = .next t → t.discipline.RateOk) ∧
  (∀ s t : State, s.notices.Ok → step s = .next t → t.notices.Ok)

/-- Every step keeps the Source Unit in order: health and enables agree, the selected source is enabled, coasting is
RELOCKING, and a synthesizer that is not OFF follows the selected source (R117, R119 to R122, R128, R130). -/
def Obligations.SourcesKept : Prop := ∀ s t : State, s.SourcesOk → step s = .next t → t.SourcesOk

/-- Every step keeps station state, reception mode, timers, agreed clock and what depends on the clock together: a
station that transmits has a valid clock, a STALLED one has none, and no anchor offset, slew or label change is held
without one (chapter 2, R4, R24, R25, R85, R106, R114). The model's in it: the slew is discarded wherever the clock is lost
(log 9), and a round end owed by a step is taken within the command (log 7). -/
def Obligations.StationKept : Prop := ∀ s t : State, s.StationOk → step s = .next t → t.StationOk

/-- Every step keeps the Peer Table in order: SELF exactly at the configured slot with the own tag alone, tags where
peers are known, a delay estimate where COUNTED, every count in its range; and no two entries ever hold the same tag (R45,
R46, R53, R55, R56, R58). -/
def Obligations.PeersKept : Prop :=
  (∀ s t : State, s.PeersOk → step s = .next t → t.PeersOk) ∧
  (∀ s t : State, s.peers.TagsDistinct → step s = .next t → t.peers.TagsDistinct)

/-- The station after a power-on reset satisfies each invariant that every step keeps. -/
def Obligations.ResetSatisfiesInvariants : Prop :=
  State.reset.discipline.RateOk ∧ State.reset.notices.Ok ∧ State.reset.SourcesOk ∧ State.reset.StationOk ∧
    State.reset.PeersOk ∧ State.reset.peers.TagsDistinct
end
end

