-- ==== Sys2Proof/Laws/Agreement.lean ====
section
/-! SUPPORT. What the agreement point reads (R66 to R70, R77), who contributes, and round ends owed by steps (R3). -/

namespace Sys2Proof.Machine

/-- An entry contributes exactly on the four conditions of R68. -/
theorem PeerEntry.contributes_iff {beforeStep : Bool} {p : PeerEntry} : p.contributes beforeStep = true ↔
    p.state = .counted ∧ (p.peerState = some .agreed ∨ p.peerState = some .isolated ∨ p.peerState = some .founding) ∧
      p.resultDeviation.isSome = true ∧
      (p.resultObservation = .good ∨ (p.resultObservation = .wild ∧ beforeStep = true)) := by
  unfold PeerEntry.contributes
  rcases h1 : p.peerState with _ | ps <;> rcases h2 : p.resultObservation <;>
    simp <;> (try cases ps) <;> simp [PeerState.countable, usable] <;> tauto

/-- The contributors are the slots of the entries that contribute (R68). -/
theorem State.mem_contributors {i : Fin 32} {s : State} :
    i ∈ s.contributors ↔ (s.peers.entries[i]).contributes s.beforeJoiningStep = true := by
  simp [State.contributors]

/-- The agreement point reads the Peer Table, the station state, the joining step marker and the configuration: states
that agree on these have the same contributors, deviations, estimate, quorum and merge test (R66). -/
theorem State.agreement_reads {a b : State} (peers : a.peers = b.peers) (station : a.station = b.station)
    (discipline : a.discipline = b.discipline) (port : a.port = b.port) :
    a.contributors = b.contributors ∧ a.deviationList = b.deviationList ∧ a.estimate = b.estimate ∧
      a.quorum = b.quorum ∧ a.minority = b.minority ∧ a.config = b.config := by
  have hc : a.contributors = b.contributors := by simp [State.contributors, State.beforeJoiningStep, peers, station, discipline]
  have hg : a.config = b.config := by simp [State.config, port]
  have hd : a.deviationList = b.deviationList := by simp [State.deviationList, hc, peers]
  have ho : a.otherGroup = b.otherGroup := by simp [State.otherGroup, peers]
  refine ⟨hc, hd, by simp [State.estimate, hd], by simp [State.quorum, hc, station, hg], ?_, hg⟩
  simp [State.minority, State.mergeApplies, State.otherHoldsLowest, hc, ho, peers, hg]

/-- Without contributors no label notice is examined (R112). -/
@[simp] theorem State.examineLabels_nil (s : State) : s.examineLabels [] = s := by
  simp [State.examineLabels, State.offered]

/-- Where no round end is owed, none is taken (R3). -/
theorem State.settleOwed_none {fuel : Nat} {s : State} (h : s.link.owedRoundEnd = none) : s.settleOwed fuel = s := by
  unfold State.settleOwed; rw [h]

end Sys2Proof.Machine
end

