-- ==== Sys2Proof/Laws/Config.lean ====
section
/-! SUPPORT. The field checks of CONFIGURE are the ranges of R162, one by one. -/

namespace Sys2Proof.Machine

theorem parseBool_isSome (n : Nat) : (parseBool n).isSome = true ↔ n = 0 ∨ n = 1 := by
  unfold parseBool; split <;> simp_all

theorem parseOnWithdraw_isSome (n : Nat) : (parseOnWithdraw n).isSome = true ↔ n = 1 ∨ n = 2 := by
  unfold parseOnWithdraw; split <;> simp_all

/-- The rate codes are 1 to 12 (R131). -/
theorem RateCode.ofCode_isSome (n : Nat) : (RateCode.ofCode n).isSome = true ↔ 1 ≤ n ∧ n ≤ 12 := by
  unfold RateCode.ofCode; split <;> simp_all
  omega

theorem RateCode.ofCode_eq_none {n : Nat} (h : ¬(1 ≤ n ∧ n ≤ 12)) : RateCode.ofCode n = none := by
  have := RateCode.ofCode_isSome n
  cases e : RateCode.ofCode n with
  | none => rfl
  | some _ => rw [e] at this; exact absurd (this.1 rfl) h

/-- A delay fits below the whole ns of its rate's period (R131, R162). -/
theorem delayOk_iff (n d : Nat) : delayOk n d = true ↔ 1 ≤ n ∧ d < periodsNs.getD (n - 1) 0 := by
  by_cases h : 1 ≤ n ∧ n ≤ 12
  · obtain ⟨h1, h2⟩ := h
    interval_cases n <;>
      simp [delayOk, RateCode.ofCode, RateCode.periodNs, RateCode.p, RateCode.q, RateCode.fraction, periodsNs, nsPerSec] <;>
      exact decide_eq_true_iff
  · rw [delayOk, RateCode.ofCode_eq_none h]
    simp only [Bool.false_eq_true, false_iff, not_and, not_lt]
    intro h1
    have : 12 < n := by omega
    rw [List.getD_eq_getElem?_getD, List.getElem?_eq_none (by simp [periodsNs]; omega)]
    exact Nat.zero_le _

theorem kindOk_iff (k r : Nat) : kindOk k r = true ↔ (k = 1 ∧ ¬(11 ≤ r ∧ r ≤ 12)) ∨ (k = 2 ∧ ¬(1 ≤ r ∧ r ≤ 10)) := by
  by_cases h : 1 ≤ r ∧ r ≤ 12
  · obtain ⟨h1, h2⟩ := h
    interval_cases r <;> rcases k with _ | _ | _ | k <;> simp [kindOk, parseKind, RateCode.ofCode, RateCode.kind]
  · rcases k with _ | _ | _ | k <;> simp [kindOk, parseKind, RateCode.ofCode_eq_none h] <;> omega

theorem pairedOk_iff (k r : Nat) : pairedOk k r = true ↔ (k = 1 ∧ r = 0) ∨ (k = 2 ∧ 1 ≤ r ∧ r ≤ 10) := by
  unfold pairedOk parseKind inRange
  rcases k with _ | _ | _ | k <;> simp_all

theorem preferredOk_iff (bs : List Byte) : preferredOk bs = true ↔
    (natAt bs 39 1 = 1 ∧ natAt bs 37 1 = 1) ∨ (natAt bs 39 1 = 2 ∧ natAt bs 38 1 = 1) := by
  unfold preferredOk parseSource
  rcases natAt bs 39 1 with _ | _ | _ | k <;> simp

theorem inRange_iff (lo hi x : Nat) : inRange lo hi x = true ↔ lo ≤ x ∧ x ≤ hi := by simp [inRange]

/-- A check for each range, of the same index. -/
abbrev ChecksAgree (cs : List (Nat × Bool)) (rs : List (Nat × Prop)) : Prop :=
  List.Forall₂ (fun c r => c.1 = r.1 ∧ (c.2 = true ↔ r.2)) cs rs

/-- The checks of a generator's fields are their ranges (R131, R162). -/
theorem genChecks_agree (bs : List Byte) (g : Nat) : ChecksAgree (genChecks bs g) (genRanges bs g) := by
  unfold ChecksAgree genChecks genRanges
  simp only [List.forall₂_cons, List.forall₂_nil_right_iff, parseBool_isSome, parseOnWithdraw_isSome,
    RateCode.ofCode_isSome, delayOk_iff, kindOk_iff, pairedOk_iff, and_true, Nat.add_assoc]

theorem foldBytes_lt (bs : List Byte) : ∀ (acc k : Nat), acc < 256 ^ k →
    bs.foldl (fun a b => a * 256 + b.toNat) acc < 256 ^ (k + bs.length) := by
  induction bs with
  | nil => intro acc k h; simpa using h
  | cons b t ih =>
    intro acc k h
    have := b.isLt
    have step := ih (acc * 256 + b.toNat) (k + 1) (by rw [pow_succ]; omega)
    simpa [Nat.add_assoc, Nat.add_comm 1] using step

/-- A field of `n` bytes holds less than 256 to the `n` (R173). -/
theorem natAt_lt (bs : List Byte) (o n : Nat) : natAt bs o n < 256 ^ n := by
  have h := foldBytes_lt (part bs o n) 0 0 (by simp)
  have len : (part bs o n).length ≤ n := by simp [part]
  exact lt_of_lt_of_le (by simpa [natAt, natOf] using h) (Nat.pow_le_pow_right (by omega) len)

/-- The checks of CONFIGURE are the ranges of R162 in their order (log 30). -/
theorem configChecks_agree (bs : List Byte) : ChecksAgree (configChecks bs) (configRanges bs) := by
  have gen := genChecks_agree bs
  have tag := natAt_lt bs 0 4
  have rounds := natAt_lt bs 21 1
  unfold configChecks configRanges
  refine List.rel_append (List.rel_append (List.rel_append (List.rel_append (List.rel_append ?_ (gen 0)) (gen 1)) (gen 2)) (gen 3)) ?_
  · simp only [List.forall₂_cons, List.forall₂_nil_right_iff, parseBool_isSome, preferredOk_iff, inRange_iff, labelOffsetOk,
      Bool.and_eq_true, decide_eq_true_eq, true_and, and_true, Nat.zero_le]
    omega
  · simp only [List.forall₂_cons, List.forall₂_nil_right_iff, bindingOk, inRange_iff, Bool.or_eq_true, Bool.and_eq_true,
      beq_iff_eq, decide_eq_true_eq, true_and, and_true]
    omega

/-- A list of checks fails nowhere exactly where its ranges hold. -/
theorem firstFailure_eq_none {cs : List (Nat × Bool)} {rs : List (Nat × Prop)} (agree : ChecksAgree cs rs) :
    firstFailure cs = none ↔ ∀ f ∈ rs, f.2 := by
  unfold firstFailure
  rw [Option.map_eq_none_iff, List.find?_eq_none]
  induction agree with
  | nil => simp
  | cons h _ ih => simp_all

/-- A record passes the checks of CONFIGURE exactly where every field lies in its range (R162). -/
theorem configChecks_pass (bs : List Byte) : firstFailure (configChecks bs) = none ↔ ConfigFits bs :=
  firstFailure_eq_none (configChecks_agree bs)

end Sys2Proof.Machine
end

