-- ==== Sys2Proof/Laws/State.lean ====
section
/-! SUPPORT. Each field of the state after the replacement of one block: one lemma per field and update. -/

namespace Sys2Proof.Machine

@[simp] theorem State.setLink_pending (s : State) (x : Link) : (s.setLink x).pending = s.pending := rfl
@[simp] theorem State.setLink_link (s : State) (x : Link) : (s.setLink x).link = x := rfl
@[simp] theorem State.setLink_peers (s : State) (x : Link) : (s.setLink x).peers = s.peers := rfl
@[simp] theorem State.setLink_agreement (s : State) (x : Link) : (s.setLink x).agreement = s.agreement := rfl
@[simp] theorem State.setLink_discipline (s : State) (x : Link) : (s.setLink x).discipline = s.discipline := rfl
@[simp] theorem State.setLink_station (s : State) (x : Link) : (s.setLink x).station = s.station := rfl
@[simp] theorem State.setLink_anchor (s : State) (x : Link) : (s.setLink x).anchor = s.anchor := rfl
@[simp] theorem State.setLink_source (s : State) (x : Link) : (s.setLink x).source = s.source := rfl
@[simp] theorem State.setLink_synthTime (s : State) (x : Link) : (s.setLink x).synthTime = s.synthTime := rfl
@[simp] theorem State.setLink_gens (s : State) (x : Link) : (s.setLink x).gens = s.gens := rfl
@[simp] theorem State.setLink_timecode (s : State) (x : Link) : (s.setLink x).timecode = s.timecode := rfl
@[simp] theorem State.setLink_notices (s : State) (x : Link) : (s.setLink x).notices = s.notices := rfl
@[simp] theorem State.setLink_port (s : State) (x : Link) : (s.setLink x).port = s.port := rfl

@[simp] theorem State.setPeers_pending (s : State) (x : PeerTable) : (s.setPeers x).pending = s.pending := rfl
@[simp] theorem State.setPeers_link (s : State) (x : PeerTable) : (s.setPeers x).link = s.link := rfl
@[simp] theorem State.setPeers_peers (s : State) (x : PeerTable) : (s.setPeers x).peers = x := rfl
@[simp] theorem State.setPeers_agreement (s : State) (x : PeerTable) : (s.setPeers x).agreement = s.agreement := rfl
@[simp] theorem State.setPeers_discipline (s : State) (x : PeerTable) : (s.setPeers x).discipline = s.discipline := rfl
@[simp] theorem State.setPeers_station (s : State) (x : PeerTable) : (s.setPeers x).station = s.station := rfl
@[simp] theorem State.setPeers_anchor (s : State) (x : PeerTable) : (s.setPeers x).anchor = s.anchor := rfl
@[simp] theorem State.setPeers_source (s : State) (x : PeerTable) : (s.setPeers x).source = s.source := rfl
@[simp] theorem State.setPeers_synthTime (s : State) (x : PeerTable) : (s.setPeers x).synthTime = s.synthTime := rfl
@[simp] theorem State.setPeers_gens (s : State) (x : PeerTable) : (s.setPeers x).gens = s.gens := rfl
@[simp] theorem State.setPeers_timecode (s : State) (x : PeerTable) : (s.setPeers x).timecode = s.timecode := rfl
@[simp] theorem State.setPeers_notices (s : State) (x : PeerTable) : (s.setPeers x).notices = s.notices := rfl
@[simp] theorem State.setPeers_port (s : State) (x : PeerTable) : (s.setPeers x).port = s.port := rfl

@[simp] theorem State.setAgreement_pending (s : State) (x : Agreement) : (s.setAgreement x).pending = s.pending := rfl
@[simp] theorem State.setAgreement_link (s : State) (x : Agreement) : (s.setAgreement x).link = s.link := rfl
@[simp] theorem State.setAgreement_peers (s : State) (x : Agreement) : (s.setAgreement x).peers = s.peers := rfl
@[simp] theorem State.setAgreement_agreement (s : State) (x : Agreement) : (s.setAgreement x).agreement = x := rfl
@[simp] theorem State.setAgreement_discipline (s : State) (x : Agreement) : (s.setAgreement x).discipline = s.discipline := rfl
@[simp] theorem State.setAgreement_station (s : State) (x : Agreement) : (s.setAgreement x).station = s.station := rfl
@[simp] theorem State.setAgreement_anchor (s : State) (x : Agreement) : (s.setAgreement x).anchor = s.anchor := rfl
@[simp] theorem State.setAgreement_source (s : State) (x : Agreement) : (s.setAgreement x).source = s.source := rfl
@[simp] theorem State.setAgreement_synthTime (s : State) (x : Agreement) : (s.setAgreement x).synthTime = s.synthTime := rfl
@[simp] theorem State.setAgreement_gens (s : State) (x : Agreement) : (s.setAgreement x).gens = s.gens := rfl
@[simp] theorem State.setAgreement_timecode (s : State) (x : Agreement) : (s.setAgreement x).timecode = s.timecode := rfl
@[simp] theorem State.setAgreement_notices (s : State) (x : Agreement) : (s.setAgreement x).notices = s.notices := rfl
@[simp] theorem State.setAgreement_port (s : State) (x : Agreement) : (s.setAgreement x).port = s.port := rfl

@[simp] theorem State.setDiscipline_pending (s : State) (x : Discipline) : (s.setDiscipline x).pending = s.pending := rfl
@[simp] theorem State.setDiscipline_link (s : State) (x : Discipline) : (s.setDiscipline x).link = s.link := rfl
@[simp] theorem State.setDiscipline_peers (s : State) (x : Discipline) : (s.setDiscipline x).peers = s.peers := rfl
@[simp] theorem State.setDiscipline_agreement (s : State) (x : Discipline) : (s.setDiscipline x).agreement = s.agreement := rfl
@[simp] theorem State.setDiscipline_discipline (s : State) (x : Discipline) : (s.setDiscipline x).discipline = x := rfl
@[simp] theorem State.setDiscipline_station (s : State) (x : Discipline) : (s.setDiscipline x).station = s.station := rfl
@[simp] theorem State.setDiscipline_anchor (s : State) (x : Discipline) : (s.setDiscipline x).anchor = s.anchor := rfl
@[simp] theorem State.setDiscipline_source (s : State) (x : Discipline) : (s.setDiscipline x).source = s.source := rfl
@[simp] theorem State.setDiscipline_synthTime (s : State) (x : Discipline) : (s.setDiscipline x).synthTime = s.synthTime := rfl
@[simp] theorem State.setDiscipline_gens (s : State) (x : Discipline) : (s.setDiscipline x).gens = s.gens := rfl
@[simp] theorem State.setDiscipline_timecode (s : State) (x : Discipline) : (s.setDiscipline x).timecode = s.timecode := rfl
@[simp] theorem State.setDiscipline_notices (s : State) (x : Discipline) : (s.setDiscipline x).notices = s.notices := rfl
@[simp] theorem State.setDiscipline_port (s : State) (x : Discipline) : (s.setDiscipline x).port = s.port := rfl

@[simp] theorem State.setStation_pending (s : State) (x : Station) : (s.setStation x).pending = s.pending := rfl
@[simp] theorem State.setStation_link (s : State) (x : Station) : (s.setStation x).link = s.link := rfl
@[simp] theorem State.setStation_peers (s : State) (x : Station) : (s.setStation x).peers = s.peers := rfl
@[simp] theorem State.setStation_agreement (s : State) (x : Station) : (s.setStation x).agreement = s.agreement := rfl
@[simp] theorem State.setStation_discipline (s : State) (x : Station) : (s.setStation x).discipline = s.discipline := rfl
@[simp] theorem State.setStation_station (s : State) (x : Station) : (s.setStation x).station = x := rfl
@[simp] theorem State.setStation_anchor (s : State) (x : Station) : (s.setStation x).anchor = s.anchor := rfl
@[simp] theorem State.setStation_source (s : State) (x : Station) : (s.setStation x).source = s.source := rfl
@[simp] theorem State.setStation_synthTime (s : State) (x : Station) : (s.setStation x).synthTime = s.synthTime := rfl
@[simp] theorem State.setStation_gens (s : State) (x : Station) : (s.setStation x).gens = s.gens := rfl
@[simp] theorem State.setStation_timecode (s : State) (x : Station) : (s.setStation x).timecode = s.timecode := rfl
@[simp] theorem State.setStation_notices (s : State) (x : Station) : (s.setStation x).notices = s.notices := rfl
@[simp] theorem State.setStation_port (s : State) (x : Station) : (s.setStation x).port = s.port := rfl

@[simp] theorem State.setAnchor_pending (s : State) (x : Anchor) : (s.setAnchor x).pending = s.pending := rfl
@[simp] theorem State.setAnchor_link (s : State) (x : Anchor) : (s.setAnchor x).link = s.link := rfl
@[simp] theorem State.setAnchor_peers (s : State) (x : Anchor) : (s.setAnchor x).peers = s.peers := rfl
@[simp] theorem State.setAnchor_agreement (s : State) (x : Anchor) : (s.setAnchor x).agreement = s.agreement := rfl
@[simp] theorem State.setAnchor_discipline (s : State) (x : Anchor) : (s.setAnchor x).discipline = s.discipline := rfl
@[simp] theorem State.setAnchor_station (s : State) (x : Anchor) : (s.setAnchor x).station = s.station := rfl
@[simp] theorem State.setAnchor_anchor (s : State) (x : Anchor) : (s.setAnchor x).anchor = x := rfl
@[simp] theorem State.setAnchor_source (s : State) (x : Anchor) : (s.setAnchor x).source = s.source := rfl
@[simp] theorem State.setAnchor_synthTime (s : State) (x : Anchor) : (s.setAnchor x).synthTime = s.synthTime := rfl
@[simp] theorem State.setAnchor_gens (s : State) (x : Anchor) : (s.setAnchor x).gens = s.gens := rfl
@[simp] theorem State.setAnchor_timecode (s : State) (x : Anchor) : (s.setAnchor x).timecode = s.timecode := rfl
@[simp] theorem State.setAnchor_notices (s : State) (x : Anchor) : (s.setAnchor x).notices = s.notices := rfl
@[simp] theorem State.setAnchor_port (s : State) (x : Anchor) : (s.setAnchor x).port = s.port := rfl

@[simp] theorem State.setSource_pending (s : State) (x : SourceUnit) : (s.setSource x).pending = s.pending := rfl
@[simp] theorem State.setSource_link (s : State) (x : SourceUnit) : (s.setSource x).link = s.link := rfl
@[simp] theorem State.setSource_peers (s : State) (x : SourceUnit) : (s.setSource x).peers = s.peers := rfl
@[simp] theorem State.setSource_agreement (s : State) (x : SourceUnit) : (s.setSource x).agreement = s.agreement := rfl
@[simp] theorem State.setSource_discipline (s : State) (x : SourceUnit) : (s.setSource x).discipline = s.discipline := rfl
@[simp] theorem State.setSource_station (s : State) (x : SourceUnit) : (s.setSource x).station = s.station := rfl
@[simp] theorem State.setSource_anchor (s : State) (x : SourceUnit) : (s.setSource x).anchor = s.anchor := rfl
@[simp] theorem State.setSource_source (s : State) (x : SourceUnit) : (s.setSource x).source = x := rfl
@[simp] theorem State.setSource_synthTime (s : State) (x : SourceUnit) : (s.setSource x).synthTime = s.synthTime := rfl
@[simp] theorem State.setSource_gens (s : State) (x : SourceUnit) : (s.setSource x).gens = s.gens := rfl
@[simp] theorem State.setSource_timecode (s : State) (x : SourceUnit) : (s.setSource x).timecode = s.timecode := rfl
@[simp] theorem State.setSource_notices (s : State) (x : SourceUnit) : (s.setSource x).notices = s.notices := rfl
@[simp] theorem State.setSource_port (s : State) (x : SourceUnit) : (s.setSource x).port = s.port := rfl

@[simp] theorem State.setGens_pending (s : State) (x : Vector Generator 4) : (s.setGens x).pending = s.pending := rfl
@[simp] theorem State.setGens_link (s : State) (x : Vector Generator 4) : (s.setGens x).link = s.link := rfl
@[simp] theorem State.setGens_peers (s : State) (x : Vector Generator 4) : (s.setGens x).peers = s.peers := rfl
@[simp] theorem State.setGens_agreement (s : State) (x : Vector Generator 4) : (s.setGens x).agreement = s.agreement := rfl
@[simp] theorem State.setGens_discipline (s : State) (x : Vector Generator 4) : (s.setGens x).discipline = s.discipline := rfl
@[simp] theorem State.setGens_station (s : State) (x : Vector Generator 4) : (s.setGens x).station = s.station := rfl
@[simp] theorem State.setGens_anchor (s : State) (x : Vector Generator 4) : (s.setGens x).anchor = s.anchor := rfl
@[simp] theorem State.setGens_source (s : State) (x : Vector Generator 4) : (s.setGens x).source = s.source := rfl
@[simp] theorem State.setGens_synthTime (s : State) (x : Vector Generator 4) : (s.setGens x).synthTime = s.synthTime := rfl
@[simp] theorem State.setGens_gens (s : State) (x : Vector Generator 4) : (s.setGens x).gens = x := rfl
@[simp] theorem State.setGens_timecode (s : State) (x : Vector Generator 4) : (s.setGens x).timecode = s.timecode := rfl
@[simp] theorem State.setGens_notices (s : State) (x : Vector Generator 4) : (s.setGens x).notices = s.notices := rfl
@[simp] theorem State.setGens_port (s : State) (x : Vector Generator 4) : (s.setGens x).port = s.port := rfl

@[simp] theorem State.setTimecode_pending (s : State) (x : Timecode) : (s.setTimecode x).pending = s.pending := rfl
@[simp] theorem State.setTimecode_link (s : State) (x : Timecode) : (s.setTimecode x).link = s.link := rfl
@[simp] theorem State.setTimecode_peers (s : State) (x : Timecode) : (s.setTimecode x).peers = s.peers := rfl
@[simp] theorem State.setTimecode_agreement (s : State) (x : Timecode) : (s.setTimecode x).agreement = s.agreement := rfl
@[simp] theorem State.setTimecode_discipline (s : State) (x : Timecode) : (s.setTimecode x).discipline = s.discipline := rfl
@[simp] theorem State.setTimecode_station (s : State) (x : Timecode) : (s.setTimecode x).station = s.station := rfl
@[simp] theorem State.setTimecode_anchor (s : State) (x : Timecode) : (s.setTimecode x).anchor = s.anchor := rfl
@[simp] theorem State.setTimecode_source (s : State) (x : Timecode) : (s.setTimecode x).source = s.source := rfl
@[simp] theorem State.setTimecode_synthTime (s : State) (x : Timecode) : (s.setTimecode x).synthTime = s.synthTime := rfl
@[simp] theorem State.setTimecode_gens (s : State) (x : Timecode) : (s.setTimecode x).gens = s.gens := rfl
@[simp] theorem State.setTimecode_timecode (s : State) (x : Timecode) : (s.setTimecode x).timecode = x := rfl
@[simp] theorem State.setTimecode_notices (s : State) (x : Timecode) : (s.setTimecode x).notices = s.notices := rfl
@[simp] theorem State.setTimecode_port (s : State) (x : Timecode) : (s.setTimecode x).port = s.port := rfl

@[simp] theorem State.setNotices_pending (s : State) (x : NoticeUnit) : (s.setNotices x).pending = s.pending := rfl
@[simp] theorem State.setNotices_link (s : State) (x : NoticeUnit) : (s.setNotices x).link = s.link := rfl
@[simp] theorem State.setNotices_peers (s : State) (x : NoticeUnit) : (s.setNotices x).peers = s.peers := rfl
@[simp] theorem State.setNotices_agreement (s : State) (x : NoticeUnit) : (s.setNotices x).agreement = s.agreement := rfl
@[simp] theorem State.setNotices_discipline (s : State) (x : NoticeUnit) : (s.setNotices x).discipline = s.discipline := rfl
@[simp] theorem State.setNotices_station (s : State) (x : NoticeUnit) : (s.setNotices x).station = s.station := rfl
@[simp] theorem State.setNotices_anchor (s : State) (x : NoticeUnit) : (s.setNotices x).anchor = s.anchor := rfl
@[simp] theorem State.setNotices_source (s : State) (x : NoticeUnit) : (s.setNotices x).source = s.source := rfl
@[simp] theorem State.setNotices_synthTime (s : State) (x : NoticeUnit) : (s.setNotices x).synthTime = s.synthTime := rfl
@[simp] theorem State.setNotices_gens (s : State) (x : NoticeUnit) : (s.setNotices x).gens = s.gens := rfl
@[simp] theorem State.setNotices_timecode (s : State) (x : NoticeUnit) : (s.setNotices x).timecode = s.timecode := rfl
@[simp] theorem State.setNotices_notices (s : State) (x : NoticeUnit) : (s.setNotices x).notices = x := rfl
@[simp] theorem State.setNotices_port (s : State) (x : NoticeUnit) : (s.setNotices x).port = s.port := rfl

@[simp] theorem State.setPort_pending (s : State) (x : Port) : (s.setPort x).pending = s.pending := rfl
@[simp] theorem State.setPort_link (s : State) (x : Port) : (s.setPort x).link = s.link := rfl
@[simp] theorem State.setPort_peers (s : State) (x : Port) : (s.setPort x).peers = s.peers := rfl
@[simp] theorem State.setPort_agreement (s : State) (x : Port) : (s.setPort x).agreement = s.agreement := rfl
@[simp] theorem State.setPort_discipline (s : State) (x : Port) : (s.setPort x).discipline = s.discipline := rfl
@[simp] theorem State.setPort_station (s : State) (x : Port) : (s.setPort x).station = s.station := rfl
@[simp] theorem State.setPort_anchor (s : State) (x : Port) : (s.setPort x).anchor = s.anchor := rfl
@[simp] theorem State.setPort_source (s : State) (x : Port) : (s.setPort x).source = s.source := rfl
@[simp] theorem State.setPort_synthTime (s : State) (x : Port) : (s.setPort x).synthTime = s.synthTime := rfl
@[simp] theorem State.setPort_gens (s : State) (x : Port) : (s.setPort x).gens = s.gens := rfl
@[simp] theorem State.setPort_timecode (s : State) (x : Port) : (s.setPort x).timecode = s.timecode := rfl
@[simp] theorem State.setPort_notices (s : State) (x : Port) : (s.setPort x).notices = s.notices := rfl
@[simp] theorem State.setPort_port (s : State) (x : Port) : (s.setPort x).port = x := rfl

@[simp] theorem State.withPending_pending (s : State) (x : List Instr) : (s.withPending x).pending = x := rfl
@[simp] theorem State.withPending_link (s : State) (x : List Instr) : (s.withPending x).link = s.link := rfl
@[simp] theorem State.withPending_peers (s : State) (x : List Instr) : (s.withPending x).peers = s.peers := rfl
@[simp] theorem State.withPending_agreement (s : State) (x : List Instr) : (s.withPending x).agreement = s.agreement := rfl
@[simp] theorem State.withPending_discipline (s : State) (x : List Instr) : (s.withPending x).discipline = s.discipline := rfl
@[simp] theorem State.withPending_station (s : State) (x : List Instr) : (s.withPending x).station = s.station := rfl
@[simp] theorem State.withPending_anchor (s : State) (x : List Instr) : (s.withPending x).anchor = s.anchor := rfl
@[simp] theorem State.withPending_source (s : State) (x : List Instr) : (s.withPending x).source = s.source := rfl
@[simp] theorem State.withPending_synthTime (s : State) (x : List Instr) : (s.withPending x).synthTime = s.synthTime := rfl
@[simp] theorem State.withPending_gens (s : State) (x : List Instr) : (s.withPending x).gens = s.gens := rfl
@[simp] theorem State.withPending_timecode (s : State) (x : List Instr) : (s.withPending x).timecode = s.timecode := rfl
@[simp] theorem State.withPending_notices (s : State) (x : List Instr) : (s.withPending x).notices = s.notices := rfl
@[simp] theorem State.withPending_port (s : State) (x : List Instr) : (s.withPending x).port = s.port := rfl

end Sys2Proof.Machine
end

