-- ==== Sys2Proof/Laws/Frames.lean ====
section
/-! SUPPORT. Which blocks of the state a shared operation leaves as they are: one lemma per operation and block. -/

namespace Sys2Proof.Machine

@[simp] theorem raiseAll_nil (s : State) : s.raiseAll [] = s := rfl
@[simp] theorem raiseAll_cons (n : Notice) (ns : List Notice) (s : State) :
    s.raiseAll (n :: ns) = (s.raise n).raiseAll ns := rfl

@[simp] theorem State.raise_pending (n : Notice) (s : State) : (s.raise n).pending = s.pending := by
  simp [State.raise]
@[simp] theorem State.raise_link (n : Notice) (s : State) : (s.raise n).link = s.link := by
  simp [State.raise]
@[simp] theorem State.raise_peers (n : Notice) (s : State) : (s.raise n).peers = s.peers := by
  simp [State.raise]
@[simp] theorem State.raise_agreement (n : Notice) (s : State) : (s.raise n).agreement = s.agreement := by
  simp [State.raise]
@[simp] theorem State.raise_discipline (n : Notice) (s : State) : (s.raise n).discipline = s.discipline := by
  simp [State.raise]
@[simp] theorem State.raise_station (n : Notice) (s : State) : (s.raise n).station = s.station := by
  simp [State.raise]
@[simp] theorem State.raise_anchor (n : Notice) (s : State) : (s.raise n).anchor = s.anchor := by
  simp [State.raise]
@[simp] theorem State.raise_source (n : Notice) (s : State) : (s.raise n).source = s.source := by
  simp [State.raise]
@[simp] theorem State.raise_synthTime (n : Notice) (s : State) : (s.raise n).synthTime = s.synthTime := by
  simp [State.raise]
@[simp] theorem State.raise_gens (n : Notice) (s : State) : (s.raise n).gens = s.gens := by
  simp [State.raise]
@[simp] theorem State.raise_timecode (n : Notice) (s : State) : (s.raise n).timecode = s.timecode := by
  simp [State.raise]
@[simp] theorem State.raise_port (n : Notice) (s : State) : (s.raise n).port = s.port := by
  simp [State.raise]

@[simp] theorem State.raiseAll_pending (ns : List Notice) (s : State) : (s.raiseAll ns).pending = s.pending := by
  induction ns generalizing s with
  | nil => rfl
  | cons n ns ih => simp [ih]
@[simp] theorem State.raiseAll_link (ns : List Notice) (s : State) : (s.raiseAll ns).link = s.link := by
  induction ns generalizing s with
  | nil => rfl
  | cons n ns ih => simp [ih]
@[simp] theorem State.raiseAll_peers (ns : List Notice) (s : State) : (s.raiseAll ns).peers = s.peers := by
  induction ns generalizing s with
  | nil => rfl
  | cons n ns ih => simp [ih]
@[simp] theorem State.raiseAll_agreement (ns : List Notice) (s : State) : (s.raiseAll ns).agreement = s.agreement := by
  induction ns generalizing s with
  | nil => rfl
  | cons n ns ih => simp [ih]
@[simp] theorem State.raiseAll_discipline (ns : List Notice) (s : State) : (s.raiseAll ns).discipline = s.discipline := by
  induction ns generalizing s with
  | nil => rfl
  | cons n ns ih => simp [ih]
@[simp] theorem State.raiseAll_station (ns : List Notice) (s : State) : (s.raiseAll ns).station = s.station := by
  induction ns generalizing s with
  | nil => rfl
  | cons n ns ih => simp [ih]
@[simp] theorem State.raiseAll_anchor (ns : List Notice) (s : State) : (s.raiseAll ns).anchor = s.anchor := by
  induction ns generalizing s with
  | nil => rfl
  | cons n ns ih => simp [ih]
@[simp] theorem State.raiseAll_source (ns : List Notice) (s : State) : (s.raiseAll ns).source = s.source := by
  induction ns generalizing s with
  | nil => rfl
  | cons n ns ih => simp [ih]
@[simp] theorem State.raiseAll_synthTime (ns : List Notice) (s : State) : (s.raiseAll ns).synthTime = s.synthTime := by
  induction ns generalizing s with
  | nil => rfl
  | cons n ns ih => simp [ih]
@[simp] theorem State.raiseAll_gens (ns : List Notice) (s : State) : (s.raiseAll ns).gens = s.gens := by
  induction ns generalizing s with
  | nil => rfl
  | cons n ns ih => simp [ih]
@[simp] theorem State.raiseAll_timecode (ns : List Notice) (s : State) : (s.raiseAll ns).timecode = s.timecode := by
  induction ns generalizing s with
  | nil => rfl
  | cons n ns ih => simp [ih]
@[simp] theorem State.raiseAll_port (ns : List Notice) (s : State) : (s.raiseAll ns).port = s.port := by
  induction ns generalizing s with
  | nil => rfl
  | cons n ns ih => simp [ih]

@[simp] theorem State.openOccasion_pending (s : State) : (s.openOccasion).pending = s.pending := by
  simp only [State.openOccasion]; (repeat' split) <;> simp
@[simp] theorem State.openOccasion_peers (s : State) : (s.openOccasion).peers = s.peers := by
  simp only [State.openOccasion]; (repeat' split) <;> simp
@[simp] theorem State.openOccasion_agreement (s : State) : (s.openOccasion).agreement = s.agreement := by
  simp only [State.openOccasion]; (repeat' split) <;> simp
@[simp] theorem State.openOccasion_discipline (s : State) : (s.openOccasion).discipline = s.discipline := by
  simp only [State.openOccasion]; (repeat' split) <;> simp
@[simp] theorem State.openOccasion_station (s : State) : (s.openOccasion).station = s.station := by
  simp only [State.openOccasion]; (repeat' split) <;> simp
@[simp] theorem State.openOccasion_anchor (s : State) : (s.openOccasion).anchor = s.anchor := by
  simp only [State.openOccasion]; (repeat' split) <;> simp
@[simp] theorem State.openOccasion_source (s : State) : (s.openOccasion).source = s.source := by
  simp only [State.openOccasion]; (repeat' split) <;> simp
@[simp] theorem State.openOccasion_synthTime (s : State) : (s.openOccasion).synthTime = s.synthTime := by
  simp only [State.openOccasion]; (repeat' split) <;> simp
@[simp] theorem State.openOccasion_gens (s : State) : (s.openOccasion).gens = s.gens := by
  simp only [State.openOccasion]; (repeat' split) <;> simp
@[simp] theorem State.openOccasion_timecode (s : State) : (s.openOccasion).timecode = s.timecode := by
  simp only [State.openOccasion]; (repeat' split) <;> simp
@[simp] theorem State.openOccasion_notices (s : State) : (s.openOccasion).notices = s.notices := by
  simp only [State.openOccasion]; (repeat' split) <;> simp
@[simp] theorem State.openOccasion_port (s : State) : (s.openOccasion).port = s.port := by
  simp only [State.openOccasion]; (repeat' split) <;> simp

@[simp] theorem State.tickRc_pending (rc : Nat) (s : State) : (s.tickRc rc).pending = s.pending := by
  simp [State.tickRc]
@[simp] theorem State.tickRc_link (rc : Nat) (s : State) : (s.tickRc rc).link = s.link := by
  simp [State.tickRc]
@[simp] theorem State.tickRc_peers (rc : Nat) (s : State) : (s.tickRc rc).peers = s.peers := by
  simp [State.tickRc]
@[simp] theorem State.tickRc_agreement (rc : Nat) (s : State) : (s.tickRc rc).agreement = s.agreement := by
  simp [State.tickRc]
@[simp] theorem State.tickRc_discipline (rc : Nat) (s : State) : (s.tickRc rc).discipline = s.discipline := by
  simp [State.tickRc]
@[simp] theorem State.tickRc_anchor (rc : Nat) (s : State) : (s.tickRc rc).anchor = s.anchor := by
  simp [State.tickRc]
@[simp] theorem State.tickRc_synthTime (rc : Nat) (s : State) : (s.tickRc rc).synthTime = s.synthTime := by
  simp [State.tickRc]
@[simp] theorem State.tickRc_gens (rc : Nat) (s : State) : (s.tickRc rc).gens = s.gens := by
  simp [State.tickRc]
@[simp] theorem State.tickRc_timecode (rc : Nat) (s : State) : (s.tickRc rc).timecode = s.timecode := by
  simp [State.tickRc]
@[simp] theorem State.tickRc_notices (rc : Nat) (s : State) : (s.tickRc rc).notices = s.notices := by
  simp [State.tickRc]
@[simp] theorem State.tickRc_port (rc : Nat) (s : State) : (s.tickRc rc).port = s.port := by
  simp [State.tickRc]

@[simp] theorem State.tickSources_pending (e : Elapsed) (s : State) : (s.tickSources e).pending = s.pending := by
  simp [State.tickSources]
@[simp] theorem State.tickSources_link (e : Elapsed) (s : State) : (s.tickSources e).link = s.link := by
  simp [State.tickSources]
@[simp] theorem State.tickSources_peers (e : Elapsed) (s : State) : (s.tickSources e).peers = s.peers := by
  simp [State.tickSources]
@[simp] theorem State.tickSources_agreement (e : Elapsed) (s : State) : (s.tickSources e).agreement = s.agreement := by
  simp [State.tickSources]
@[simp] theorem State.tickSources_discipline (e : Elapsed) (s : State) : (s.tickSources e).discipline = s.discipline := by
  simp [State.tickSources]
@[simp] theorem State.tickSources_station (e : Elapsed) (s : State) : (s.tickSources e).station = s.station := by
  simp [State.tickSources]
@[simp] theorem State.tickSources_anchor (e : Elapsed) (s : State) : (s.tickSources e).anchor = s.anchor := by
  simp [State.tickSources]
@[simp] theorem State.tickSources_synthTime (e : Elapsed) (s : State) : (s.tickSources e).synthTime = s.synthTime := by
  simp [State.tickSources]
@[simp] theorem State.tickSources_gens (e : Elapsed) (s : State) : (s.tickSources e).gens = s.gens := by
  simp [State.tickSources]
@[simp] theorem State.tickSources_timecode (e : Elapsed) (s : State) : (s.tickSources e).timecode = s.timecode := by
  simp [State.tickSources]
@[simp] theorem State.tickSources_notices (e : Elapsed) (s : State) : (s.tickSources e).notices = s.notices := by
  simp [State.tickSources]
@[simp] theorem State.tickSources_port (e : Elapsed) (s : State) : (s.tickSources e).port = s.port := by
  simp [State.tickSources]

@[simp] theorem State.tickClock_pending (e : Elapsed) (s : State) : (s.tickClock e).pending = s.pending := by
  simp only [State.tickClock]; (repeat' split) <;> simp
@[simp] theorem State.tickClock_peers (e : Elapsed) (s : State) : (s.tickClock e).peers = s.peers := by
  simp only [State.tickClock]; (repeat' split) <;> simp
@[simp] theorem State.tickClock_agreement (e : Elapsed) (s : State) : (s.tickClock e).agreement = s.agreement := by
  simp only [State.tickClock]; (repeat' split) <;> simp
@[simp] theorem State.tickClock_station (e : Elapsed) (s : State) : (s.tickClock e).station = s.station := by
  simp only [State.tickClock]; (repeat' split) <;> simp
@[simp] theorem State.tickClock_source (e : Elapsed) (s : State) : (s.tickClock e).source = s.source := by
  simp only [State.tickClock]; (repeat' split) <;> simp
@[simp] theorem State.tickClock_synthTime (e : Elapsed) (s : State) : (s.tickClock e).synthTime = s.synthTime := by
  simp only [State.tickClock]; (repeat' split) <;> simp
@[simp] theorem State.tickClock_gens (e : Elapsed) (s : State) : (s.tickClock e).gens = s.gens := by
  simp only [State.tickClock]; (repeat' split) <;> simp
@[simp] theorem State.tickClock_timecode (e : Elapsed) (s : State) : (s.tickClock e).timecode = s.timecode := by
  simp only [State.tickClock]; (repeat' split) <;> simp
@[simp] theorem State.tickClock_notices (e : Elapsed) (s : State) : (s.tickClock e).notices = s.notices := by
  simp only [State.tickClock]; (repeat' split) <;> simp
@[simp] theorem State.tickClock_port (e : Elapsed) (s : State) : (s.tickClock e).port = s.port := by
  simp only [State.tickClock]; (repeat' split) <;> simp

@[simp] theorem State.elapse_pending (e : Elapsed) (s : State) : (s.elapse e).pending = s.pending := by
  simp [State.elapse]
@[simp] theorem State.elapse_peers (e : Elapsed) (s : State) : (s.elapse e).peers = s.peers := by
  simp [State.elapse]
@[simp] theorem State.elapse_agreement (e : Elapsed) (s : State) : (s.elapse e).agreement = s.agreement := by
  simp [State.elapse]
@[simp] theorem State.elapse_gens (e : Elapsed) (s : State) : (s.elapse e).gens = s.gens := by
  simp [State.elapse]
@[simp] theorem State.elapse_timecode (e : Elapsed) (s : State) : (s.elapse e).timecode = s.timecode := by
  simp [State.elapse]
@[simp] theorem State.elapse_notices (e : Elapsed) (s : State) : (s.elapse e).notices = s.notices := by
  simp [State.elapse]
@[simp] theorem State.elapse_port (e : Elapsed) (s : State) : (s.elapse e).port = s.port := by
  simp [State.elapse]

@[simp] theorem State.handToPeer_pending (slot : Fin 32) (lag : Option Int) (b : Beacon) (s : State) : (s.handToPeer slot lag b).pending = s.pending := by
  simp [State.handToPeer]
@[simp] theorem State.handToPeer_link (slot : Fin 32) (lag : Option Int) (b : Beacon) (s : State) : (s.handToPeer slot lag b).link = s.link := by
  simp [State.handToPeer]
@[simp] theorem State.handToPeer_agreement (slot : Fin 32) (lag : Option Int) (b : Beacon) (s : State) : (s.handToPeer slot lag b).agreement = s.agreement := by
  simp [State.handToPeer]
@[simp] theorem State.handToPeer_discipline (slot : Fin 32) (lag : Option Int) (b : Beacon) (s : State) : (s.handToPeer slot lag b).discipline = s.discipline := by
  simp [State.handToPeer]
@[simp] theorem State.handToPeer_station (slot : Fin 32) (lag : Option Int) (b : Beacon) (s : State) : (s.handToPeer slot lag b).station = s.station := by
  simp [State.handToPeer]
@[simp] theorem State.handToPeer_anchor (slot : Fin 32) (lag : Option Int) (b : Beacon) (s : State) : (s.handToPeer slot lag b).anchor = s.anchor := by
  simp [State.handToPeer]
@[simp] theorem State.handToPeer_source (slot : Fin 32) (lag : Option Int) (b : Beacon) (s : State) : (s.handToPeer slot lag b).source = s.source := by
  simp [State.handToPeer]
@[simp] theorem State.handToPeer_synthTime (slot : Fin 32) (lag : Option Int) (b : Beacon) (s : State) : (s.handToPeer slot lag b).synthTime = s.synthTime := by
  simp [State.handToPeer]
@[simp] theorem State.handToPeer_gens (slot : Fin 32) (lag : Option Int) (b : Beacon) (s : State) : (s.handToPeer slot lag b).gens = s.gens := by
  simp [State.handToPeer]
@[simp] theorem State.handToPeer_timecode (slot : Fin 32) (lag : Option Int) (b : Beacon) (s : State) : (s.handToPeer slot lag b).timecode = s.timecode := by
  simp [State.handToPeer]
@[simp] theorem State.handToPeer_port (slot : Fin 32) (lag : Option Int) (b : Beacon) (s : State) : (s.handToPeer slot lag b).port = s.port := by
  simp [State.handToPeer]

@[simp] theorem State.closeTable_pending (s : State) : (s.closeTable).pending = s.pending := by
  simp [State.closeTable]
@[simp] theorem State.closeTable_link (s : State) : (s.closeTable).link = s.link := by
  simp [State.closeTable]
@[simp] theorem State.closeTable_agreement (s : State) : (s.closeTable).agreement = s.agreement := by
  simp [State.closeTable]
@[simp] theorem State.closeTable_discipline (s : State) : (s.closeTable).discipline = s.discipline := by
  simp [State.closeTable]
@[simp] theorem State.closeTable_station (s : State) : (s.closeTable).station = s.station := by
  simp [State.closeTable]
@[simp] theorem State.closeTable_anchor (s : State) : (s.closeTable).anchor = s.anchor := by
  simp [State.closeTable]
@[simp] theorem State.closeTable_source (s : State) : (s.closeTable).source = s.source := by
  simp [State.closeTable]
@[simp] theorem State.closeTable_synthTime (s : State) : (s.closeTable).synthTime = s.synthTime := by
  simp [State.closeTable]
@[simp] theorem State.closeTable_gens (s : State) : (s.closeTable).gens = s.gens := by
  simp [State.closeTable]
@[simp] theorem State.closeTable_timecode (s : State) : (s.closeTable).timecode = s.timecode := by
  simp [State.closeTable]
@[simp] theorem State.closeTable_port (s : State) : (s.closeTable).port = s.port := by
  simp [State.closeTable]

@[simp] theorem State.formWord_pending (i : Fin 4) (g : GenSettings) (n : Nat) (t : Nat) (s : State) : (s.formWord i g n t).pending = s.pending := by
  simp only [State.formWord]; (repeat' split) <;> simp
@[simp] theorem State.formWord_link (i : Fin 4) (g : GenSettings) (n : Nat) (t : Nat) (s : State) : (s.formWord i g n t).link = s.link := by
  simp only [State.formWord]; (repeat' split) <;> simp
@[simp] theorem State.formWord_peers (i : Fin 4) (g : GenSettings) (n : Nat) (t : Nat) (s : State) : (s.formWord i g n t).peers = s.peers := by
  simp only [State.formWord]; (repeat' split) <;> simp
@[simp] theorem State.formWord_agreement (i : Fin 4) (g : GenSettings) (n : Nat) (t : Nat) (s : State) : (s.formWord i g n t).agreement = s.agreement := by
  simp only [State.formWord]; (repeat' split) <;> simp
@[simp] theorem State.formWord_discipline (i : Fin 4) (g : GenSettings) (n : Nat) (t : Nat) (s : State) : (s.formWord i g n t).discipline = s.discipline := by
  simp only [State.formWord]; (repeat' split) <;> simp
@[simp] theorem State.formWord_station (i : Fin 4) (g : GenSettings) (n : Nat) (t : Nat) (s : State) : (s.formWord i g n t).station = s.station := by
  simp only [State.formWord]; (repeat' split) <;> simp
@[simp] theorem State.formWord_anchor (i : Fin 4) (g : GenSettings) (n : Nat) (t : Nat) (s : State) : (s.formWord i g n t).anchor = s.anchor := by
  simp only [State.formWord]; (repeat' split) <;> simp
@[simp] theorem State.formWord_source (i : Fin 4) (g : GenSettings) (n : Nat) (t : Nat) (s : State) : (s.formWord i g n t).source = s.source := by
  simp only [State.formWord]; (repeat' split) <;> simp
@[simp] theorem State.formWord_synthTime (i : Fin 4) (g : GenSettings) (n : Nat) (t : Nat) (s : State) : (s.formWord i g n t).synthTime = s.synthTime := by
  simp only [State.formWord]; (repeat' split) <;> simp
@[simp] theorem State.formWord_gens (i : Fin 4) (g : GenSettings) (n : Nat) (t : Nat) (s : State) : (s.formWord i g n t).gens = s.gens := by
  simp only [State.formWord]; (repeat' split) <;> simp
@[simp] theorem State.formWord_port (i : Fin 4) (g : GenSettings) (n : Nat) (t : Nat) (s : State) : (s.formWord i g n t).port = s.port := by
  simp only [State.formWord]; (repeat' split) <;> simp

@[simp] theorem State.armOne_pending (i : Fin 4) (s : State) : (s.armOne i).pending = s.pending := by
  simp only [State.armOne]; (repeat' split) <;> simp
@[simp] theorem State.armOne_link (i : Fin 4) (s : State) : (s.armOne i).link = s.link := by
  simp only [State.armOne]; (repeat' split) <;> simp
@[simp] theorem State.armOne_peers (i : Fin 4) (s : State) : (s.armOne i).peers = s.peers := by
  simp only [State.armOne]; (repeat' split) <;> simp
@[simp] theorem State.armOne_agreement (i : Fin 4) (s : State) : (s.armOne i).agreement = s.agreement := by
  simp only [State.armOne]; (repeat' split) <;> simp
@[simp] theorem State.armOne_discipline (i : Fin 4) (s : State) : (s.armOne i).discipline = s.discipline := by
  simp only [State.armOne]; (repeat' split) <;> simp
@[simp] theorem State.armOne_station (i : Fin 4) (s : State) : (s.armOne i).station = s.station := by
  simp only [State.armOne]; (repeat' split) <;> simp
@[simp] theorem State.armOne_anchor (i : Fin 4) (s : State) : (s.armOne i).anchor = s.anchor := by
  simp only [State.armOne]; (repeat' split) <;> simp
@[simp] theorem State.armOne_source (i : Fin 4) (s : State) : (s.armOne i).source = s.source := by
  simp only [State.armOne]; (repeat' split) <;> simp
@[simp] theorem State.armOne_synthTime (i : Fin 4) (s : State) : (s.armOne i).synthTime = s.synthTime := by
  simp only [State.armOne]; (repeat' split) <;> simp
@[simp] theorem State.armOne_timecode (i : Fin 4) (s : State) : (s.armOne i).timecode = s.timecode := by
  simp only [State.armOne]; (repeat' split) <;> simp
@[simp] theorem State.armOne_notices (i : Fin 4) (s : State) : (s.armOne i).notices = s.notices := by
  simp only [State.armOne]; (repeat' split) <;> simp
@[simp] theorem State.armOne_port (i : Fin 4) (s : State) : (s.armOne i).port = s.port := by
  simp only [State.armOne]; (repeat' split) <;> simp

@[simp] theorem State.armAll_pending (s : State) : (s.armAll).pending = s.pending := by
  simp [State.armAll, List.finRange_succ]
@[simp] theorem State.armAll_link (s : State) : (s.armAll).link = s.link := by
  simp [State.armAll, List.finRange_succ]
@[simp] theorem State.armAll_peers (s : State) : (s.armAll).peers = s.peers := by
  simp [State.armAll, List.finRange_succ]
@[simp] theorem State.armAll_agreement (s : State) : (s.armAll).agreement = s.agreement := by
  simp [State.armAll, List.finRange_succ]
@[simp] theorem State.armAll_discipline (s : State) : (s.armAll).discipline = s.discipline := by
  simp [State.armAll, List.finRange_succ]
@[simp] theorem State.armAll_station (s : State) : (s.armAll).station = s.station := by
  simp [State.armAll, List.finRange_succ]
@[simp] theorem State.armAll_anchor (s : State) : (s.armAll).anchor = s.anchor := by
  simp [State.armAll, List.finRange_succ]
@[simp] theorem State.armAll_source (s : State) : (s.armAll).source = s.source := by
  simp [State.armAll, List.finRange_succ]
@[simp] theorem State.armAll_synthTime (s : State) : (s.armAll).synthTime = s.synthTime := by
  simp [State.armAll, List.finRange_succ]
@[simp] theorem State.armAll_timecode (s : State) : (s.armAll).timecode = s.timecode := by
  simp [State.armAll, List.finRange_succ]
@[simp] theorem State.armAll_notices (s : State) : (s.armAll).notices = s.notices := by
  simp [State.armAll, List.finRange_succ]
@[simp] theorem State.armAll_port (s : State) : (s.armAll).port = s.port := by
  simp [State.armAll, List.finRange_succ]

@[simp] theorem State.stepGens_pending (a : Nat) (s : State) : (s.stepGens a).pending = s.pending := by
  simp [State.stepGens]
@[simp] theorem State.stepGens_link (a : Nat) (s : State) : (s.stepGens a).link = s.link := by
  simp [State.stepGens]
@[simp] theorem State.stepGens_peers (a : Nat) (s : State) : (s.stepGens a).peers = s.peers := by
  simp [State.stepGens]
@[simp] theorem State.stepGens_agreement (a : Nat) (s : State) : (s.stepGens a).agreement = s.agreement := by
  simp [State.stepGens]
@[simp] theorem State.stepGens_discipline (a : Nat) (s : State) : (s.stepGens a).discipline = s.discipline := by
  simp [State.stepGens]
@[simp] theorem State.stepGens_station (a : Nat) (s : State) : (s.stepGens a).station = s.station := by
  simp [State.stepGens]
@[simp] theorem State.stepGens_anchor (a : Nat) (s : State) : (s.stepGens a).anchor = s.anchor := by
  simp [State.stepGens]
@[simp] theorem State.stepGens_source (a : Nat) (s : State) : (s.stepGens a).source = s.source := by
  simp [State.stepGens]
@[simp] theorem State.stepGens_synthTime (a : Nat) (s : State) : (s.stepGens a).synthTime = s.synthTime := by
  simp [State.stepGens]
@[simp] theorem State.stepGens_timecode (a : Nat) (s : State) : (s.stepGens a).timecode = s.timecode := by
  simp [State.stepGens]
@[simp] theorem State.stepGens_notices (a : Nat) (s : State) : (s.stepGens a).notices = s.notices := by
  simp [State.stepGens]
@[simp] theorem State.stepGens_port (a : Nat) (s : State) : (s.stepGens a).port = s.port := by
  simp [State.stepGens]

@[simp] theorem State.withdrawGens_pending (s : State) : (s.withdrawGens).pending = s.pending := by
  simp [State.withdrawGens]
@[simp] theorem State.withdrawGens_link (s : State) : (s.withdrawGens).link = s.link := by
  simp [State.withdrawGens]
@[simp] theorem State.withdrawGens_peers (s : State) : (s.withdrawGens).peers = s.peers := by
  simp [State.withdrawGens]
@[simp] theorem State.withdrawGens_agreement (s : State) : (s.withdrawGens).agreement = s.agreement := by
  simp [State.withdrawGens]
@[simp] theorem State.withdrawGens_discipline (s : State) : (s.withdrawGens).discipline = s.discipline := by
  simp [State.withdrawGens]
@[simp] theorem State.withdrawGens_station (s : State) : (s.withdrawGens).station = s.station := by
  simp [State.withdrawGens]
@[simp] theorem State.withdrawGens_anchor (s : State) : (s.withdrawGens).anchor = s.anchor := by
  simp [State.withdrawGens]
@[simp] theorem State.withdrawGens_source (s : State) : (s.withdrawGens).source = s.source := by
  simp [State.withdrawGens]
@[simp] theorem State.withdrawGens_synthTime (s : State) : (s.withdrawGens).synthTime = s.synthTime := by
  simp [State.withdrawGens]
@[simp] theorem State.withdrawGens_timecode (s : State) : (s.withdrawGens).timecode = s.timecode := by
  simp [State.withdrawGens]
@[simp] theorem State.withdrawGens_notices (s : State) : (s.withdrawGens).notices = s.notices := by
  simp [State.withdrawGens]
@[simp] theorem State.withdrawGens_port (s : State) : (s.withdrawGens).port = s.port := by
  simp [State.withdrawGens]

@[simp] theorem State.endRuns_pending (s : State) : (s.endRuns).pending = s.pending := by
  simp [State.endRuns]
@[simp] theorem State.endRuns_link (s : State) : (s.endRuns).link = s.link := by
  simp [State.endRuns]
@[simp] theorem State.endRuns_peers (s : State) : (s.endRuns).peers = s.peers := by
  simp [State.endRuns]
@[simp] theorem State.endRuns_agreement (s : State) : (s.endRuns).agreement = s.agreement := by
  simp [State.endRuns]
@[simp] theorem State.endRuns_discipline (s : State) : (s.endRuns).discipline = s.discipline := by
  simp [State.endRuns]
@[simp] theorem State.endRuns_station (s : State) : (s.endRuns).station = s.station := by
  simp [State.endRuns]
@[simp] theorem State.endRuns_anchor (s : State) : (s.endRuns).anchor = s.anchor := by
  simp [State.endRuns]
@[simp] theorem State.endRuns_source (s : State) : (s.endRuns).source = s.source := by
  simp [State.endRuns]
@[simp] theorem State.endRuns_synthTime (s : State) : (s.endRuns).synthTime = s.synthTime := by
  simp [State.endRuns]
@[simp] theorem State.endRuns_timecode (s : State) : (s.endRuns).timecode = s.timecode := by
  simp [State.endRuns]
@[simp] theorem State.endRuns_notices (s : State) : (s.endRuns).notices = s.notices := by
  simp [State.endRuns]
@[simp] theorem State.endRuns_port (s : State) : (s.endRuns).port = s.port := by
  simp [State.endRuns]

@[simp] theorem State.cutGens_pending (s : State) : (s.cutGens).pending = s.pending := by
  simp [State.cutGens]
@[simp] theorem State.cutGens_link (s : State) : (s.cutGens).link = s.link := by
  simp [State.cutGens]
@[simp] theorem State.cutGens_peers (s : State) : (s.cutGens).peers = s.peers := by
  simp [State.cutGens]
@[simp] theorem State.cutGens_agreement (s : State) : (s.cutGens).agreement = s.agreement := by
  simp [State.cutGens]
@[simp] theorem State.cutGens_discipline (s : State) : (s.cutGens).discipline = s.discipline := by
  simp [State.cutGens]
@[simp] theorem State.cutGens_station (s : State) : (s.cutGens).station = s.station := by
  simp [State.cutGens]
@[simp] theorem State.cutGens_anchor (s : State) : (s.cutGens).anchor = s.anchor := by
  simp [State.cutGens]
@[simp] theorem State.cutGens_source (s : State) : (s.cutGens).source = s.source := by
  simp [State.cutGens]
@[simp] theorem State.cutGens_synthTime (s : State) : (s.cutGens).synthTime = s.synthTime := by
  simp [State.cutGens]
@[simp] theorem State.cutGens_timecode (s : State) : (s.cutGens).timecode = s.timecode := by
  simp [State.cutGens]
@[simp] theorem State.cutGens_notices (s : State) : (s.cutGens).notices = s.notices := by
  simp [State.cutGens]
@[simp] theorem State.cutGens_port (s : State) : (s.cutGens).port = s.port := by
  simp [State.cutGens]

@[simp] theorem State.runBoundary_pending (i : Fin 4) (g : GenSettings) (nb : NextBoundary) (a : Nat) (s : State) : (s.runBoundary i g nb a).pending = s.pending := by
  simp [State.runBoundary]
@[simp] theorem State.runBoundary_link (i : Fin 4) (g : GenSettings) (nb : NextBoundary) (a : Nat) (s : State) : (s.runBoundary i g nb a).link = s.link := by
  simp [State.runBoundary]
@[simp] theorem State.runBoundary_peers (i : Fin 4) (g : GenSettings) (nb : NextBoundary) (a : Nat) (s : State) : (s.runBoundary i g nb a).peers = s.peers := by
  simp [State.runBoundary]
@[simp] theorem State.runBoundary_agreement (i : Fin 4) (g : GenSettings) (nb : NextBoundary) (a : Nat) (s : State) : (s.runBoundary i g nb a).agreement = s.agreement := by
  simp [State.runBoundary]
@[simp] theorem State.runBoundary_discipline (i : Fin 4) (g : GenSettings) (nb : NextBoundary) (a : Nat) (s : State) : (s.runBoundary i g nb a).discipline = s.discipline := by
  simp [State.runBoundary]
@[simp] theorem State.runBoundary_station (i : Fin 4) (g : GenSettings) (nb : NextBoundary) (a : Nat) (s : State) : (s.runBoundary i g nb a).station = s.station := by
  simp [State.runBoundary]
@[simp] theorem State.runBoundary_anchor (i : Fin 4) (g : GenSettings) (nb : NextBoundary) (a : Nat) (s : State) : (s.runBoundary i g nb a).anchor = s.anchor := by
  simp [State.runBoundary]
@[simp] theorem State.runBoundary_source (i : Fin 4) (g : GenSettings) (nb : NextBoundary) (a : Nat) (s : State) : (s.runBoundary i g nb a).source = s.source := by
  simp [State.runBoundary]
@[simp] theorem State.runBoundary_synthTime (i : Fin 4) (g : GenSettings) (nb : NextBoundary) (a : Nat) (s : State) : (s.runBoundary i g nb a).synthTime = s.synthTime := by
  simp [State.runBoundary]
@[simp] theorem State.runBoundary_port (i : Fin 4) (g : GenSettings) (nb : NextBoundary) (a : Nat) (s : State) : (s.runBoundary i g nb a).port = s.port := by
  simp [State.runBoundary]

@[simp] theorem State.endBoundary_pending (i : Fin 4) (g : GenSettings) (nb : NextBoundary) (s : State) : (s.endBoundary i g nb).pending = s.pending := by
  simp only [State.endBoundary]; (repeat' split) <;> simp
@[simp] theorem State.endBoundary_link (i : Fin 4) (g : GenSettings) (nb : NextBoundary) (s : State) : (s.endBoundary i g nb).link = s.link := by
  simp only [State.endBoundary]; (repeat' split) <;> simp
@[simp] theorem State.endBoundary_peers (i : Fin 4) (g : GenSettings) (nb : NextBoundary) (s : State) : (s.endBoundary i g nb).peers = s.peers := by
  simp only [State.endBoundary]; (repeat' split) <;> simp
@[simp] theorem State.endBoundary_agreement (i : Fin 4) (g : GenSettings) (nb : NextBoundary) (s : State) : (s.endBoundary i g nb).agreement = s.agreement := by
  simp only [State.endBoundary]; (repeat' split) <;> simp
@[simp] theorem State.endBoundary_discipline (i : Fin 4) (g : GenSettings) (nb : NextBoundary) (s : State) : (s.endBoundary i g nb).discipline = s.discipline := by
  simp only [State.endBoundary]; (repeat' split) <;> simp
@[simp] theorem State.endBoundary_station (i : Fin 4) (g : GenSettings) (nb : NextBoundary) (s : State) : (s.endBoundary i g nb).station = s.station := by
  simp only [State.endBoundary]; (repeat' split) <;> simp
@[simp] theorem State.endBoundary_anchor (i : Fin 4) (g : GenSettings) (nb : NextBoundary) (s : State) : (s.endBoundary i g nb).anchor = s.anchor := by
  simp only [State.endBoundary]; (repeat' split) <;> simp
@[simp] theorem State.endBoundary_source (i : Fin 4) (g : GenSettings) (nb : NextBoundary) (s : State) : (s.endBoundary i g nb).source = s.source := by
  simp only [State.endBoundary]; (repeat' split) <;> simp
@[simp] theorem State.endBoundary_synthTime (i : Fin 4) (g : GenSettings) (nb : NextBoundary) (s : State) : (s.endBoundary i g nb).synthTime = s.synthTime := by
  simp only [State.endBoundary]; (repeat' split) <;> simp
@[simp] theorem State.endBoundary_timecode (i : Fin 4) (g : GenSettings) (nb : NextBoundary) (s : State) : (s.endBoundary i g nb).timecode = s.timecode := by
  simp only [State.endBoundary]; (repeat' split) <;> simp
@[simp] theorem State.endBoundary_notices (i : Fin 4) (g : GenSettings) (nb : NextBoundary) (s : State) : (s.endBoundary i g nb).notices = s.notices := by
  simp only [State.endBoundary]; (repeat' split) <;> simp
@[simp] theorem State.endBoundary_port (i : Fin 4) (g : GenSettings) (nb : NextBoundary) (s : State) : (s.endBoundary i g nb).port = s.port := by
  simp only [State.endBoundary]; (repeat' split) <;> simp

@[simp] theorem State.takeBoundary_pending (i : Fin 4) (s : State) : (s.takeBoundary i).pending = s.pending := by
  simp only [State.takeBoundary]; (repeat' split) <;> simp
@[simp] theorem State.takeBoundary_link (i : Fin 4) (s : State) : (s.takeBoundary i).link = s.link := by
  simp only [State.takeBoundary]; (repeat' split) <;> simp
@[simp] theorem State.takeBoundary_peers (i : Fin 4) (s : State) : (s.takeBoundary i).peers = s.peers := by
  simp only [State.takeBoundary]; (repeat' split) <;> simp
@[simp] theorem State.takeBoundary_agreement (i : Fin 4) (s : State) : (s.takeBoundary i).agreement = s.agreement := by
  simp only [State.takeBoundary]; (repeat' split) <;> simp
@[simp] theorem State.takeBoundary_discipline (i : Fin 4) (s : State) : (s.takeBoundary i).discipline = s.discipline := by
  simp only [State.takeBoundary]; (repeat' split) <;> simp
@[simp] theorem State.takeBoundary_station (i : Fin 4) (s : State) : (s.takeBoundary i).station = s.station := by
  simp only [State.takeBoundary]; (repeat' split) <;> simp
@[simp] theorem State.takeBoundary_anchor (i : Fin 4) (s : State) : (s.takeBoundary i).anchor = s.anchor := by
  simp only [State.takeBoundary]; (repeat' split) <;> simp
@[simp] theorem State.takeBoundary_source (i : Fin 4) (s : State) : (s.takeBoundary i).source = s.source := by
  simp only [State.takeBoundary]; (repeat' split) <;> simp
@[simp] theorem State.takeBoundary_synthTime (i : Fin 4) (s : State) : (s.takeBoundary i).synthTime = s.synthTime := by
  simp only [State.takeBoundary]; (repeat' split) <;> simp
@[simp] theorem State.takeBoundary_port (i : Fin 4) (s : State) : (s.takeBoundary i).port = s.port := by
  simp only [State.takeBoundary]; (repeat' split) <;> simp

@[simp] theorem State.dropAnchor_pending (c : AnchorCause) (s : State) : (s.dropAnchor c).pending = s.pending := by
  simp only [State.dropAnchor]; (repeat' split) <;> simp
@[simp] theorem State.dropAnchor_link (c : AnchorCause) (s : State) : (s.dropAnchor c).link = s.link := by
  simp only [State.dropAnchor]; (repeat' split) <;> simp
@[simp] theorem State.dropAnchor_peers (c : AnchorCause) (s : State) : (s.dropAnchor c).peers = s.peers := by
  simp only [State.dropAnchor]; (repeat' split) <;> simp
@[simp] theorem State.dropAnchor_agreement (c : AnchorCause) (s : State) : (s.dropAnchor c).agreement = s.agreement := by
  simp only [State.dropAnchor]; (repeat' split) <;> simp
@[simp] theorem State.dropAnchor_discipline (c : AnchorCause) (s : State) : (s.dropAnchor c).discipline = s.discipline := by
  simp only [State.dropAnchor]; (repeat' split) <;> simp
@[simp] theorem State.dropAnchor_station (c : AnchorCause) (s : State) : (s.dropAnchor c).station = s.station := by
  simp only [State.dropAnchor]; (repeat' split) <;> simp
@[simp] theorem State.dropAnchor_source (c : AnchorCause) (s : State) : (s.dropAnchor c).source = s.source := by
  simp only [State.dropAnchor]; (repeat' split) <;> simp
@[simp] theorem State.dropAnchor_synthTime (c : AnchorCause) (s : State) : (s.dropAnchor c).synthTime = s.synthTime := by
  simp only [State.dropAnchor]; (repeat' split) <;> simp
@[simp] theorem State.dropAnchor_gens (c : AnchorCause) (s : State) : (s.dropAnchor c).gens = s.gens := by
  simp only [State.dropAnchor]; (repeat' split) <;> simp
@[simp] theorem State.dropAnchor_timecode (c : AnchorCause) (s : State) : (s.dropAnchor c).timecode = s.timecode := by
  simp only [State.dropAnchor]; (repeat' split) <;> simp
@[simp] theorem State.dropAnchor_port (c : AnchorCause) (s : State) : (s.dropAnchor c).port = s.port := by
  simp only [State.dropAnchor]; (repeat' split) <;> simp

@[simp] theorem State.capture_pending (n : Nat) (t : Nat) (s : State) : (s.capture n t).pending = s.pending := by
  simp only [State.capture]; (repeat' split) <;> simp
@[simp] theorem State.capture_link (n : Nat) (t : Nat) (s : State) : (s.capture n t).link = s.link := by
  simp only [State.capture]; (repeat' split) <;> simp
@[simp] theorem State.capture_peers (n : Nat) (t : Nat) (s : State) : (s.capture n t).peers = s.peers := by
  simp only [State.capture]; (repeat' split) <;> simp
@[simp] theorem State.capture_agreement (n : Nat) (t : Nat) (s : State) : (s.capture n t).agreement = s.agreement := by
  simp only [State.capture]; (repeat' split) <;> simp
@[simp] theorem State.capture_discipline (n : Nat) (t : Nat) (s : State) : (s.capture n t).discipline = s.discipline := by
  simp only [State.capture]; (repeat' split) <;> simp
@[simp] theorem State.capture_station (n : Nat) (t : Nat) (s : State) : (s.capture n t).station = s.station := by
  simp only [State.capture]; (repeat' split) <;> simp
@[simp] theorem State.capture_source (n : Nat) (t : Nat) (s : State) : (s.capture n t).source = s.source := by
  simp only [State.capture]; (repeat' split) <;> simp
@[simp] theorem State.capture_synthTime (n : Nat) (t : Nat) (s : State) : (s.capture n t).synthTime = s.synthTime := by
  simp only [State.capture]; (repeat' split) <;> simp
@[simp] theorem State.capture_gens (n : Nat) (t : Nat) (s : State) : (s.capture n t).gens = s.gens := by
  simp only [State.capture]; (repeat' split) <;> simp
@[simp] theorem State.capture_timecode (n : Nat) (t : Nat) (s : State) : (s.capture n t).timecode = s.timecode := by
  simp only [State.capture]; (repeat' split) <;> simp
@[simp] theorem State.capture_port (n : Nat) (t : Nat) (s : State) : (s.capture n t).port = s.port := by
  simp only [State.capture]; (repeat' split) <;> simp

@[simp] theorem State.applyChange_pending (c : LabelChange) (s : State) : (s.applyChange c).pending = s.pending := by
  simp [State.applyChange]
@[simp] theorem State.applyChange_link (c : LabelChange) (s : State) : (s.applyChange c).link = s.link := by
  simp [State.applyChange]
@[simp] theorem State.applyChange_peers (c : LabelChange) (s : State) : (s.applyChange c).peers = s.peers := by
  simp [State.applyChange]
@[simp] theorem State.applyChange_agreement (c : LabelChange) (s : State) : (s.applyChange c).agreement = s.agreement := by
  simp [State.applyChange]
@[simp] theorem State.applyChange_discipline (c : LabelChange) (s : State) : (s.applyChange c).discipline = s.discipline := by
  simp [State.applyChange]
@[simp] theorem State.applyChange_station (c : LabelChange) (s : State) : (s.applyChange c).station = s.station := by
  simp [State.applyChange]
@[simp] theorem State.applyChange_source (c : LabelChange) (s : State) : (s.applyChange c).source = s.source := by
  simp [State.applyChange]
@[simp] theorem State.applyChange_synthTime (c : LabelChange) (s : State) : (s.applyChange c).synthTime = s.synthTime := by
  simp [State.applyChange]
@[simp] theorem State.applyChange_gens (c : LabelChange) (s : State) : (s.applyChange c).gens = s.gens := by
  simp [State.applyChange]
@[simp] theorem State.applyChange_timecode (c : LabelChange) (s : State) : (s.applyChange c).timecode = s.timecode := by
  simp [State.applyChange]
@[simp] theorem State.applyChange_port (c : LabelChange) (s : State) : (s.applyChange c).port = s.port := by
  simp [State.applyChange]

@[simp] theorem State.applyDue_pending (s : State) : (s.applyDue).pending = s.pending := by
  simp only [State.applyDue]; (repeat' split) <;> simp
@[simp] theorem State.applyDue_link (s : State) : (s.applyDue).link = s.link := by
  simp only [State.applyDue]; (repeat' split) <;> simp
@[simp] theorem State.applyDue_peers (s : State) : (s.applyDue).peers = s.peers := by
  simp only [State.applyDue]; (repeat' split) <;> simp
@[simp] theorem State.applyDue_agreement (s : State) : (s.applyDue).agreement = s.agreement := by
  simp only [State.applyDue]; (repeat' split) <;> simp
@[simp] theorem State.applyDue_discipline (s : State) : (s.applyDue).discipline = s.discipline := by
  simp only [State.applyDue]; (repeat' split) <;> simp
@[simp] theorem State.applyDue_station (s : State) : (s.applyDue).station = s.station := by
  simp only [State.applyDue]; (repeat' split) <;> simp
@[simp] theorem State.applyDue_source (s : State) : (s.applyDue).source = s.source := by
  simp only [State.applyDue]; (repeat' split) <;> simp
@[simp] theorem State.applyDue_synthTime (s : State) : (s.applyDue).synthTime = s.synthTime := by
  simp only [State.applyDue]; (repeat' split) <;> simp
@[simp] theorem State.applyDue_gens (s : State) : (s.applyDue).gens = s.gens := by
  simp only [State.applyDue]; (repeat' split) <;> simp
@[simp] theorem State.applyDue_timecode (s : State) : (s.applyDue).timecode = s.timecode := by
  simp only [State.applyDue]; (repeat' split) <;> simp
@[simp] theorem State.applyDue_port (s : State) : (s.applyDue).port = s.port := by
  simp only [State.applyDue]; (repeat' split) <;> simp

@[simp] theorem State.labelConflict_pending (n : Nat) (s : State) : (s.labelConflict n).pending = s.pending := by
  simp [State.labelConflict]
@[simp] theorem State.labelConflict_link (n : Nat) (s : State) : (s.labelConflict n).link = s.link := by
  simp [State.labelConflict]
@[simp] theorem State.labelConflict_peers (n : Nat) (s : State) : (s.labelConflict n).peers = s.peers := by
  simp [State.labelConflict]
@[simp] theorem State.labelConflict_agreement (n : Nat) (s : State) : (s.labelConflict n).agreement = s.agreement := by
  simp [State.labelConflict]
@[simp] theorem State.labelConflict_discipline (n : Nat) (s : State) : (s.labelConflict n).discipline = s.discipline := by
  simp [State.labelConflict]
@[simp] theorem State.labelConflict_station (n : Nat) (s : State) : (s.labelConflict n).station = s.station := by
  simp [State.labelConflict]
@[simp] theorem State.labelConflict_source (n : Nat) (s : State) : (s.labelConflict n).source = s.source := by
  simp [State.labelConflict]
@[simp] theorem State.labelConflict_synthTime (n : Nat) (s : State) : (s.labelConflict n).synthTime = s.synthTime := by
  simp [State.labelConflict]
@[simp] theorem State.labelConflict_gens (n : Nat) (s : State) : (s.labelConflict n).gens = s.gens := by
  simp [State.labelConflict]
@[simp] theorem State.labelConflict_timecode (n : Nat) (s : State) : (s.labelConflict n).timecode = s.timecode := by
  simp [State.labelConflict]
@[simp] theorem State.labelConflict_port (n : Nat) (s : State) : (s.labelConflict n).port = s.port := by
  simp [State.labelConflict]

@[simp] theorem State.adopt_pending (slot : Fin 32) (n : LabelNotice) (s : State) : (s.adopt slot n).pending = s.pending := by
  simp [State.adopt]
@[simp] theorem State.adopt_link (slot : Fin 32) (n : LabelNotice) (s : State) : (s.adopt slot n).link = s.link := by
  simp [State.adopt]
@[simp] theorem State.adopt_peers (slot : Fin 32) (n : LabelNotice) (s : State) : (s.adopt slot n).peers = s.peers := by
  simp [State.adopt]
@[simp] theorem State.adopt_agreement (slot : Fin 32) (n : LabelNotice) (s : State) : (s.adopt slot n).agreement = s.agreement := by
  simp [State.adopt]
@[simp] theorem State.adopt_discipline (slot : Fin 32) (n : LabelNotice) (s : State) : (s.adopt slot n).discipline = s.discipline := by
  simp [State.adopt]
@[simp] theorem State.adopt_station (slot : Fin 32) (n : LabelNotice) (s : State) : (s.adopt slot n).station = s.station := by
  simp [State.adopt]
@[simp] theorem State.adopt_source (slot : Fin 32) (n : LabelNotice) (s : State) : (s.adopt slot n).source = s.source := by
  simp [State.adopt]
@[simp] theorem State.adopt_synthTime (slot : Fin 32) (n : LabelNotice) (s : State) : (s.adopt slot n).synthTime = s.synthTime := by
  simp [State.adopt]
@[simp] theorem State.adopt_gens (slot : Fin 32) (n : LabelNotice) (s : State) : (s.adopt slot n).gens = s.gens := by
  simp [State.adopt]
@[simp] theorem State.adopt_timecode (slot : Fin 32) (n : LabelNotice) (s : State) : (s.adopt slot n).timecode = s.timecode := by
  simp [State.adopt]
@[simp] theorem State.adopt_port (slot : Fin 32) (n : LabelNotice) (s : State) : (s.adopt slot n).port = s.port := by
  simp [State.adopt]

@[simp] theorem State.examineLabels_pending (cs : List (Fin 32)) (s : State) : (s.examineLabels cs).pending = s.pending := by
  simp only [State.examineLabels]; (repeat' split) <;> simp
@[simp] theorem State.examineLabels_link (cs : List (Fin 32)) (s : State) : (s.examineLabels cs).link = s.link := by
  simp only [State.examineLabels]; (repeat' split) <;> simp
@[simp] theorem State.examineLabels_peers (cs : List (Fin 32)) (s : State) : (s.examineLabels cs).peers = s.peers := by
  simp only [State.examineLabels]; (repeat' split) <;> simp
@[simp] theorem State.examineLabels_agreement (cs : List (Fin 32)) (s : State) : (s.examineLabels cs).agreement = s.agreement := by
  simp only [State.examineLabels]; (repeat' split) <;> simp
@[simp] theorem State.examineLabels_discipline (cs : List (Fin 32)) (s : State) : (s.examineLabels cs).discipline = s.discipline := by
  simp only [State.examineLabels]; (repeat' split) <;> simp
@[simp] theorem State.examineLabels_station (cs : List (Fin 32)) (s : State) : (s.examineLabels cs).station = s.station := by
  simp only [State.examineLabels]; (repeat' split) <;> simp
@[simp] theorem State.examineLabels_source (cs : List (Fin 32)) (s : State) : (s.examineLabels cs).source = s.source := by
  simp only [State.examineLabels]; (repeat' split) <;> simp
@[simp] theorem State.examineLabels_synthTime (cs : List (Fin 32)) (s : State) : (s.examineLabels cs).synthTime = s.synthTime := by
  simp only [State.examineLabels]; (repeat' split) <;> simp
@[simp] theorem State.examineLabels_gens (cs : List (Fin 32)) (s : State) : (s.examineLabels cs).gens = s.gens := by
  simp only [State.examineLabels]; (repeat' split) <;> simp
@[simp] theorem State.examineLabels_timecode (cs : List (Fin 32)) (s : State) : (s.examineLabels cs).timecode = s.timecode := by
  simp only [State.examineLabels]; (repeat' split) <;> simp
@[simp] theorem State.examineLabels_port (cs : List (Fin 32)) (s : State) : (s.examineLabels cs).port = s.port := by
  simp only [State.examineLabels]; (repeat' split) <;> simp

@[simp] theorem State.takeMajorityOffset_pending (s : State) : (s.takeMajorityOffset).pending = s.pending := by
  simp only [State.takeMajorityOffset]; (repeat' split) <;> simp
@[simp] theorem State.takeMajorityOffset_link (s : State) : (s.takeMajorityOffset).link = s.link := by
  simp only [State.takeMajorityOffset]; (repeat' split) <;> simp
@[simp] theorem State.takeMajorityOffset_peers (s : State) : (s.takeMajorityOffset).peers = s.peers := by
  simp only [State.takeMajorityOffset]; (repeat' split) <;> simp
@[simp] theorem State.takeMajorityOffset_agreement (s : State) : (s.takeMajorityOffset).agreement = s.agreement := by
  simp only [State.takeMajorityOffset]; (repeat' split) <;> simp
@[simp] theorem State.takeMajorityOffset_discipline (s : State) : (s.takeMajorityOffset).discipline = s.discipline := by
  simp only [State.takeMajorityOffset]; (repeat' split) <;> simp
@[simp] theorem State.takeMajorityOffset_station (s : State) : (s.takeMajorityOffset).station = s.station := by
  simp only [State.takeMajorityOffset]; (repeat' split) <;> simp
@[simp] theorem State.takeMajorityOffset_source (s : State) : (s.takeMajorityOffset).source = s.source := by
  simp only [State.takeMajorityOffset]; (repeat' split) <;> simp
@[simp] theorem State.takeMajorityOffset_synthTime (s : State) : (s.takeMajorityOffset).synthTime = s.synthTime := by
  simp only [State.takeMajorityOffset]; (repeat' split) <;> simp
@[simp] theorem State.takeMajorityOffset_gens (s : State) : (s.takeMajorityOffset).gens = s.gens := by
  simp only [State.takeMajorityOffset]; (repeat' split) <;> simp
@[simp] theorem State.takeMajorityOffset_timecode (s : State) : (s.takeMajorityOffset).timecode = s.timecode := by
  simp only [State.takeMajorityOffset]; (repeat' split) <;> simp
@[simp] theorem State.takeMajorityOffset_notices (s : State) : (s.takeMajorityOffset).notices = s.notices := by
  simp only [State.takeMajorityOffset]; (repeat' split) <;> simp
@[simp] theorem State.takeMajorityOffset_port (s : State) : (s.takeMajorityOffset).port = s.port := by
  simp only [State.takeMajorityOffset]; (repeat' split) <;> simp

@[simp] theorem State.build_pending (st : PeerState) (n : Nat) (s : State) : (s.build st n).pending = s.pending := by
  simp [State.build]
@[simp] theorem State.build_peers (st : PeerState) (n : Nat) (s : State) : (s.build st n).peers = s.peers := by
  simp [State.build]
@[simp] theorem State.build_agreement (st : PeerState) (n : Nat) (s : State) : (s.build st n).agreement = s.agreement := by
  simp [State.build]
@[simp] theorem State.build_discipline (st : PeerState) (n : Nat) (s : State) : (s.build st n).discipline = s.discipline := by
  simp [State.build]
@[simp] theorem State.build_station (st : PeerState) (n : Nat) (s : State) : (s.build st n).station = s.station := by
  simp [State.build]
@[simp] theorem State.build_anchor (st : PeerState) (n : Nat) (s : State) : (s.build st n).anchor = s.anchor := by
  simp [State.build]
@[simp] theorem State.build_source (st : PeerState) (n : Nat) (s : State) : (s.build st n).source = s.source := by
  simp [State.build]
@[simp] theorem State.build_synthTime (st : PeerState) (n : Nat) (s : State) : (s.build st n).synthTime = s.synthTime := by
  simp [State.build]
@[simp] theorem State.build_gens (st : PeerState) (n : Nat) (s : State) : (s.build st n).gens = s.gens := by
  simp [State.build]
@[simp] theorem State.build_timecode (st : PeerState) (n : Nat) (s : State) : (s.build st n).timecode = s.timecode := by
  simp [State.build]
@[simp] theorem State.build_notices (st : PeerState) (n : Nat) (s : State) : (s.build st n).notices = s.notices := by
  simp [State.build]
@[simp] theorem State.build_port (st : PeerState) (n : Nat) (s : State) : (s.build st n).port = s.port := by
  simp [State.build]

@[simp] theorem State.beginFrame_pending (b : BuiltBeacon) (s : State) : (s.beginFrame b).pending = s.pending := by
  simp [State.beginFrame]
@[simp] theorem State.beginFrame_peers (b : BuiltBeacon) (s : State) : (s.beginFrame b).peers = s.peers := by
  simp [State.beginFrame]
@[simp] theorem State.beginFrame_agreement (b : BuiltBeacon) (s : State) : (s.beginFrame b).agreement = s.agreement := by
  simp [State.beginFrame]
@[simp] theorem State.beginFrame_discipline (b : BuiltBeacon) (s : State) : (s.beginFrame b).discipline = s.discipline := by
  simp [State.beginFrame]
@[simp] theorem State.beginFrame_station (b : BuiltBeacon) (s : State) : (s.beginFrame b).station = s.station := by
  simp [State.beginFrame]
@[simp] theorem State.beginFrame_anchor (b : BuiltBeacon) (s : State) : (s.beginFrame b).anchor = s.anchor := by
  simp [State.beginFrame]
@[simp] theorem State.beginFrame_source (b : BuiltBeacon) (s : State) : (s.beginFrame b).source = s.source := by
  simp [State.beginFrame]
@[simp] theorem State.beginFrame_synthTime (b : BuiltBeacon) (s : State) : (s.beginFrame b).synthTime = s.synthTime := by
  simp [State.beginFrame]
@[simp] theorem State.beginFrame_gens (b : BuiltBeacon) (s : State) : (s.beginFrame b).gens = s.gens := by
  simp [State.beginFrame]
@[simp] theorem State.beginFrame_timecode (b : BuiltBeacon) (s : State) : (s.beginFrame b).timecode = s.timecode := by
  simp [State.beginFrame]
@[simp] theorem State.beginFrame_notices (b : BuiltBeacon) (s : State) : (s.beginFrame b).notices = s.notices := by
  simp [State.beginFrame]
@[simp] theorem State.beginFrame_port (b : BuiltBeacon) (s : State) : (s.beginFrame b).port = s.port := by
  simp [State.beginFrame]

@[simp] theorem State.releaseFrame_pending (x : Transmission) (s : State) : (s.releaseFrame x).pending = s.pending := by
  simp [State.releaseFrame]
@[simp] theorem State.releaseFrame_peers (x : Transmission) (s : State) : (s.releaseFrame x).peers = s.peers := by
  simp [State.releaseFrame]
@[simp] theorem State.releaseFrame_agreement (x : Transmission) (s : State) : (s.releaseFrame x).agreement = s.agreement := by
  simp [State.releaseFrame]
@[simp] theorem State.releaseFrame_discipline (x : Transmission) (s : State) : (s.releaseFrame x).discipline = s.discipline := by
  simp [State.releaseFrame]
@[simp] theorem State.releaseFrame_station (x : Transmission) (s : State) : (s.releaseFrame x).station = s.station := by
  simp [State.releaseFrame]
@[simp] theorem State.releaseFrame_anchor (x : Transmission) (s : State) : (s.releaseFrame x).anchor = s.anchor := by
  simp [State.releaseFrame]
@[simp] theorem State.releaseFrame_source (x : Transmission) (s : State) : (s.releaseFrame x).source = s.source := by
  simp [State.releaseFrame]
@[simp] theorem State.releaseFrame_synthTime (x : Transmission) (s : State) : (s.releaseFrame x).synthTime = s.synthTime := by
  simp [State.releaseFrame]
@[simp] theorem State.releaseFrame_gens (x : Transmission) (s : State) : (s.releaseFrame x).gens = s.gens := by
  simp [State.releaseFrame]
@[simp] theorem State.releaseFrame_timecode (x : Transmission) (s : State) : (s.releaseFrame x).timecode = s.timecode := by
  simp [State.releaseFrame]
@[simp] theorem State.releaseFrame_notices (x : Transmission) (s : State) : (s.releaseFrame x).notices = s.notices := by
  simp [State.releaseFrame]
@[simp] theorem State.releaseFrame_port (x : Transmission) (s : State) : (s.releaseFrame x).port = s.port := by
  simp [State.releaseFrame]

@[simp] theorem State.enterMode_pending (m : ReceptionMode) (s : State) : (s.enterMode m).pending = s.pending := by
  simp only [State.enterMode]; (repeat' split) <;> simp
@[simp] theorem State.enterMode_peers (m : ReceptionMode) (s : State) : (s.enterMode m).peers = s.peers := by
  simp only [State.enterMode]; (repeat' split) <;> simp
@[simp] theorem State.enterMode_agreement (m : ReceptionMode) (s : State) : (s.enterMode m).agreement = s.agreement := by
  simp only [State.enterMode]; (repeat' split) <;> simp
@[simp] theorem State.enterMode_discipline (m : ReceptionMode) (s : State) : (s.enterMode m).discipline = s.discipline := by
  simp only [State.enterMode]; (repeat' split) <;> simp
@[simp] theorem State.enterMode_station (m : ReceptionMode) (s : State) : (s.enterMode m).station = s.station := by
  simp only [State.enterMode]; (repeat' split) <;> simp
@[simp] theorem State.enterMode_anchor (m : ReceptionMode) (s : State) : (s.enterMode m).anchor = s.anchor := by
  simp only [State.enterMode]; (repeat' split) <;> simp
@[simp] theorem State.enterMode_source (m : ReceptionMode) (s : State) : (s.enterMode m).source = s.source := by
  simp only [State.enterMode]; (repeat' split) <;> simp
@[simp] theorem State.enterMode_synthTime (m : ReceptionMode) (s : State) : (s.enterMode m).synthTime = s.synthTime := by
  simp only [State.enterMode]; (repeat' split) <;> simp
@[simp] theorem State.enterMode_gens (m : ReceptionMode) (s : State) : (s.enterMode m).gens = s.gens := by
  simp only [State.enterMode]; (repeat' split) <;> simp
@[simp] theorem State.enterMode_timecode (m : ReceptionMode) (s : State) : (s.enterMode m).timecode = s.timecode := by
  simp only [State.enterMode]; (repeat' split) <;> simp
@[simp] theorem State.enterMode_notices (m : ReceptionMode) (s : State) : (s.enterMode m).notices = s.notices := by
  simp only [State.enterMode]; (repeat' split) <;> simp
@[simp] theorem State.enterMode_port (m : ReceptionMode) (s : State) : (s.enterMode m).port = s.port := by
  simp only [State.enterMode]; (repeat' split) <;> simp

@[simp] theorem State.cutOff_pending (s : State) : (s.cutOff).pending = s.pending := by
  simp [State.cutOff]
@[simp] theorem State.cutOff_peers (s : State) : (s.cutOff).peers = s.peers := by
  simp [State.cutOff]
@[simp] theorem State.cutOff_agreement (s : State) : (s.cutOff).agreement = s.agreement := by
  simp [State.cutOff]
@[simp] theorem State.cutOff_discipline (s : State) : (s.cutOff).discipline = s.discipline := by
  simp [State.cutOff]
@[simp] theorem State.cutOff_station (s : State) : (s.cutOff).station = s.station := by
  simp [State.cutOff]
@[simp] theorem State.cutOff_anchor (s : State) : (s.cutOff).anchor = s.anchor := by
  simp [State.cutOff]
@[simp] theorem State.cutOff_source (s : State) : (s.cutOff).source = s.source := by
  simp [State.cutOff]
@[simp] theorem State.cutOff_synthTime (s : State) : (s.cutOff).synthTime = s.synthTime := by
  simp [State.cutOff]
@[simp] theorem State.cutOff_gens (s : State) : (s.cutOff).gens = s.gens := by
  simp [State.cutOff]
@[simp] theorem State.cutOff_timecode (s : State) : (s.cutOff).timecode = s.timecode := by
  simp [State.cutOff]
@[simp] theorem State.cutOff_notices (s : State) : (s.cutOff).notices = s.notices := by
  simp [State.cutOff]
@[simp] theorem State.cutOff_port (s : State) : (s.cutOff).port = s.port := by
  simp [State.cutOff]

@[simp] theorem State.stallLink_pending (s : State) : (s.stallLink).pending = s.pending := by
  simp [State.stallLink]
@[simp] theorem State.stallLink_peers (s : State) : (s.stallLink).peers = s.peers := by
  simp [State.stallLink]
@[simp] theorem State.stallLink_agreement (s : State) : (s.stallLink).agreement = s.agreement := by
  simp [State.stallLink]
@[simp] theorem State.stallLink_discipline (s : State) : (s.stallLink).discipline = s.discipline := by
  simp [State.stallLink]
@[simp] theorem State.stallLink_station (s : State) : (s.stallLink).station = s.station := by
  simp [State.stallLink]
@[simp] theorem State.stallLink_anchor (s : State) : (s.stallLink).anchor = s.anchor := by
  simp [State.stallLink]
@[simp] theorem State.stallLink_source (s : State) : (s.stallLink).source = s.source := by
  simp [State.stallLink]
@[simp] theorem State.stallLink_synthTime (s : State) : (s.stallLink).synthTime = s.synthTime := by
  simp [State.stallLink]
@[simp] theorem State.stallLink_gens (s : State) : (s.stallLink).gens = s.gens := by
  simp [State.stallLink]
@[simp] theorem State.stallLink_timecode (s : State) : (s.stallLink).timecode = s.timecode := by
  simp [State.stallLink]
@[simp] theorem State.stallLink_notices (s : State) : (s.stallLink).notices = s.notices := by
  simp [State.stallLink]
@[simp] theorem State.stallLink_port (s : State) : (s.stallLink).port = s.port := by
  simp [State.stallLink]

@[simp] theorem State.closeWindow_pending (s : State) : (s.closeWindow).pending = s.pending := by
  simp [State.closeWindow]
@[simp] theorem State.closeWindow_peers (s : State) : (s.closeWindow).peers = s.peers := by
  simp [State.closeWindow]
@[simp] theorem State.closeWindow_agreement (s : State) : (s.closeWindow).agreement = s.agreement := by
  simp [State.closeWindow]
@[simp] theorem State.closeWindow_discipline (s : State) : (s.closeWindow).discipline = s.discipline := by
  simp [State.closeWindow]
@[simp] theorem State.closeWindow_station (s : State) : (s.closeWindow).station = s.station := by
  simp [State.closeWindow]
@[simp] theorem State.closeWindow_anchor (s : State) : (s.closeWindow).anchor = s.anchor := by
  simp [State.closeWindow]
@[simp] theorem State.closeWindow_source (s : State) : (s.closeWindow).source = s.source := by
  simp [State.closeWindow]
@[simp] theorem State.closeWindow_synthTime (s : State) : (s.closeWindow).synthTime = s.synthTime := by
  simp [State.closeWindow]
@[simp] theorem State.closeWindow_gens (s : State) : (s.closeWindow).gens = s.gens := by
  simp [State.closeWindow]
@[simp] theorem State.closeWindow_timecode (s : State) : (s.closeWindow).timecode = s.timecode := by
  simp [State.closeWindow]
@[simp] theorem State.closeWindow_notices (s : State) : (s.closeWindow).notices = s.notices := by
  simp [State.closeWindow]
@[simp] theorem State.closeWindow_port (s : State) : (s.closeWindow).port = s.port := by
  simp [State.closeWindow]

@[simp] theorem State.stepClock_pending (a : Int) (s : State) : (s.stepClock a).pending = s.pending := by
  simp only [State.stepClock]; (repeat' split) <;> simp
@[simp] theorem State.stepClock_agreement (a : Int) (s : State) : (s.stepClock a).agreement = s.agreement := by
  simp only [State.stepClock]; (repeat' split) <;> simp
@[simp] theorem State.stepClock_station (a : Int) (s : State) : (s.stepClock a).station = s.station := by
  simp only [State.stepClock]; (repeat' split) <;> simp
@[simp] theorem State.stepClock_source (a : Int) (s : State) : (s.stepClock a).source = s.source := by
  simp only [State.stepClock]; (repeat' split) <;> simp
@[simp] theorem State.stepClock_synthTime (a : Int) (s : State) : (s.stepClock a).synthTime = s.synthTime := by
  simp only [State.stepClock]; (repeat' split) <;> simp
@[simp] theorem State.stepClock_timecode (a : Int) (s : State) : (s.stepClock a).timecode = s.timecode := by
  simp only [State.stepClock]; (repeat' split) <;> simp
@[simp] theorem State.stepClock_port (a : Int) (s : State) : (s.stepClock a).port = s.port := by
  simp only [State.stepClock]; (repeat' split) <;> simp

@[simp] theorem State.stepNoticed_pending (o : StepOrigin) (a : Int) (s : State) : (s.stepNoticed o a).pending = s.pending := by
  simp only [State.stepNoticed]; (repeat' split) <;> simp
@[simp] theorem State.stepNoticed_agreement (o : StepOrigin) (a : Int) (s : State) : (s.stepNoticed o a).agreement = s.agreement := by
  simp only [State.stepNoticed]; (repeat' split) <;> simp
@[simp] theorem State.stepNoticed_station (o : StepOrigin) (a : Int) (s : State) : (s.stepNoticed o a).station = s.station := by
  simp only [State.stepNoticed]; (repeat' split) <;> simp
@[simp] theorem State.stepNoticed_source (o : StepOrigin) (a : Int) (s : State) : (s.stepNoticed o a).source = s.source := by
  simp only [State.stepNoticed]; (repeat' split) <;> simp
@[simp] theorem State.stepNoticed_synthTime (o : StepOrigin) (a : Int) (s : State) : (s.stepNoticed o a).synthTime = s.synthTime := by
  simp only [State.stepNoticed]; (repeat' split) <;> simp
@[simp] theorem State.stepNoticed_timecode (o : StepOrigin) (a : Int) (s : State) : (s.stepNoticed o a).timecode = s.timecode := by
  simp only [State.stepNoticed]; (repeat' split) <;> simp
@[simp] theorem State.stepNoticed_port (o : StepOrigin) (a : Int) (s : State) : (s.stepNoticed o a).port = s.port := by
  simp only [State.stepNoticed]; (repeat' split) <;> simp

@[simp] theorem State.setClock_pending (u : Nat) (s : State) : (s.setClock u).pending = s.pending := by
  simp [State.setClock]
@[simp] theorem State.setClock_peers (u : Nat) (s : State) : (s.setClock u).peers = s.peers := by
  simp [State.setClock]
@[simp] theorem State.setClock_agreement (u : Nat) (s : State) : (s.setClock u).agreement = s.agreement := by
  simp [State.setClock]
@[simp] theorem State.setClock_station (u : Nat) (s : State) : (s.setClock u).station = s.station := by
  simp [State.setClock]
@[simp] theorem State.setClock_anchor (u : Nat) (s : State) : (s.setClock u).anchor = s.anchor := by
  simp [State.setClock]
@[simp] theorem State.setClock_source (u : Nat) (s : State) : (s.setClock u).source = s.source := by
  simp [State.setClock]
@[simp] theorem State.setClock_synthTime (u : Nat) (s : State) : (s.setClock u).synthTime = s.synthTime := by
  simp [State.setClock]
@[simp] theorem State.setClock_gens (u : Nat) (s : State) : (s.setClock u).gens = s.gens := by
  simp [State.setClock]
@[simp] theorem State.setClock_timecode (u : Nat) (s : State) : (s.setClock u).timecode = s.timecode := by
  simp [State.setClock]
@[simp] theorem State.setClock_notices (u : Nat) (s : State) : (s.setClock u).notices = s.notices := by
  simp [State.setClock]
@[simp] theorem State.setClock_port (u : Nat) (s : State) : (s.setClock u).port = s.port := by
  simp [State.setClock]

@[simp] theorem State.invalidateClock_pending (s : State) : (s.invalidateClock).pending = s.pending := by
  simp [State.invalidateClock]
@[simp] theorem State.invalidateClock_peers (s : State) : (s.invalidateClock).peers = s.peers := by
  simp [State.invalidateClock]
@[simp] theorem State.invalidateClock_agreement (s : State) : (s.invalidateClock).agreement = s.agreement := by
  simp [State.invalidateClock]
@[simp] theorem State.invalidateClock_station (s : State) : (s.invalidateClock).station = s.station := by
  simp [State.invalidateClock]
@[simp] theorem State.invalidateClock_source (s : State) : (s.invalidateClock).source = s.source := by
  simp [State.invalidateClock]
@[simp] theorem State.invalidateClock_synthTime (s : State) : (s.invalidateClock).synthTime = s.synthTime := by
  simp [State.invalidateClock]
@[simp] theorem State.invalidateClock_gens (s : State) : (s.invalidateClock).gens = s.gens := by
  simp [State.invalidateClock]
@[simp] theorem State.invalidateClock_timecode (s : State) : (s.invalidateClock).timecode = s.timecode := by
  simp [State.invalidateClock]
@[simp] theorem State.invalidateClock_port (s : State) : (s.invalidateClock).port = s.port := by
  simp [State.invalidateClock]

@[simp] theorem State.loseClock_pending (s : State) : (s.loseClock).pending = s.pending := by
  simp only [State.loseClock]; (repeat' split) <;> simp
@[simp] theorem State.loseClock_peers (s : State) : (s.loseClock).peers = s.peers := by
  simp only [State.loseClock]; (repeat' split) <;> simp
@[simp] theorem State.loseClock_agreement (s : State) : (s.loseClock).agreement = s.agreement := by
  simp only [State.loseClock]; (repeat' split) <;> simp
@[simp] theorem State.loseClock_station (s : State) : (s.loseClock).station = s.station := by
  simp only [State.loseClock]; (repeat' split) <;> simp
@[simp] theorem State.loseClock_source (s : State) : (s.loseClock).source = s.source := by
  simp only [State.loseClock]; (repeat' split) <;> simp
@[simp] theorem State.loseClock_synthTime (s : State) : (s.loseClock).synthTime = s.synthTime := by
  simp only [State.loseClock]; (repeat' split) <;> simp
@[simp] theorem State.loseClock_timecode (s : State) : (s.loseClock).timecode = s.timecode := by
  simp only [State.loseClock]; (repeat' split) <;> simp
@[simp] theorem State.loseClock_port (s : State) : (s.loseClock).port = s.port := by
  simp only [State.loseClock]; (repeat' split) <;> simp

@[simp] theorem State.coastOn_pending (s : State) : (s.coastOn).pending = s.pending := by
  simp [State.coastOn]
@[simp] theorem State.coastOn_peers (s : State) : (s.coastOn).peers = s.peers := by
  simp [State.coastOn]
@[simp] theorem State.coastOn_agreement (s : State) : (s.coastOn).agreement = s.agreement := by
  simp [State.coastOn]
@[simp] theorem State.coastOn_station (s : State) : (s.coastOn).station = s.station := by
  simp [State.coastOn]
@[simp] theorem State.coastOn_anchor (s : State) : (s.coastOn).anchor = s.anchor := by
  simp [State.coastOn]
@[simp] theorem State.coastOn_synthTime (s : State) : (s.coastOn).synthTime = s.synthTime := by
  simp [State.coastOn]
@[simp] theorem State.coastOn_gens (s : State) : (s.coastOn).gens = s.gens := by
  simp [State.coastOn]
@[simp] theorem State.coastOn_timecode (s : State) : (s.coastOn).timecode = s.timecode := by
  simp [State.coastOn]
@[simp] theorem State.coastOn_notices (s : State) : (s.coastOn).notices = s.notices := by
  simp [State.coastOn]
@[simp] theorem State.coastOn_port (s : State) : (s.coastOn).port = s.port := by
  simp [State.coastOn]

@[simp] theorem State.follow_pending (s : State) : (s.follow).pending = s.pending := by
  simp only [State.follow]; (repeat' split) <;> simp
@[simp] theorem State.follow_peers (s : State) : (s.follow).peers = s.peers := by
  simp only [State.follow]; (repeat' split) <;> simp
@[simp] theorem State.follow_agreement (s : State) : (s.follow).agreement = s.agreement := by
  simp only [State.follow]; (repeat' split) <;> simp
@[simp] theorem State.follow_station (s : State) : (s.follow).station = s.station := by
  simp only [State.follow]; (repeat' split) <;> simp
@[simp] theorem State.follow_anchor (s : State) : (s.follow).anchor = s.anchor := by
  simp only [State.follow]; (repeat' split) <;> simp
@[simp] theorem State.follow_synthTime (s : State) : (s.follow).synthTime = s.synthTime := by
  simp only [State.follow]; (repeat' split) <;> simp
@[simp] theorem State.follow_gens (s : State) : (s.follow).gens = s.gens := by
  simp only [State.follow]; (repeat' split) <;> simp
@[simp] theorem State.follow_timecode (s : State) : (s.follow).timecode = s.timecode := by
  simp only [State.follow]; (repeat' split) <;> simp
@[simp] theorem State.follow_notices (s : State) : (s.follow).notices = s.notices := by
  simp only [State.follow]; (repeat' split) <;> simp
@[simp] theorem State.follow_port (s : State) : (s.follow).port = s.port := by
  simp only [State.follow]; (repeat' split) <;> simp

@[simp] theorem State.select_pending (x : Source) (s : State) : (s.select x).pending = s.pending := by
  simp [State.select]
@[simp] theorem State.select_peers (x : Source) (s : State) : (s.select x).peers = s.peers := by
  simp [State.select]
@[simp] theorem State.select_agreement (x : Source) (s : State) : (s.select x).agreement = s.agreement := by
  simp [State.select]
@[simp] theorem State.select_station (x : Source) (s : State) : (s.select x).station = s.station := by
  simp [State.select]
@[simp] theorem State.select_anchor (x : Source) (s : State) : (s.select x).anchor = s.anchor := by
  simp [State.select]
@[simp] theorem State.select_synthTime (x : Source) (s : State) : (s.select x).synthTime = s.synthTime := by
  simp [State.select]
@[simp] theorem State.select_gens (x : Source) (s : State) : (s.select x).gens = s.gens := by
  simp [State.select]
@[simp] theorem State.select_timecode (x : Source) (s : State) : (s.select x).timecode = s.timecode := by
  simp [State.select]
@[simp] theorem State.select_notices (x : Source) (s : State) : (s.select x).notices = s.notices := by
  simp [State.select]
@[simp] theorem State.select_port (x : Source) (s : State) : (s.select x).port = s.port := by
  simp [State.select]

@[simp] theorem State.failover_pending (s : State) : (s.failover).pending = s.pending := by
  simp only [State.failover]; (repeat' split) <;> simp
@[simp] theorem State.failover_peers (s : State) : (s.failover).peers = s.peers := by
  simp only [State.failover]; (repeat' split) <;> simp
@[simp] theorem State.failover_agreement (s : State) : (s.failover).agreement = s.agreement := by
  simp only [State.failover]; (repeat' split) <;> simp
@[simp] theorem State.failover_station (s : State) : (s.failover).station = s.station := by
  simp only [State.failover]; (repeat' split) <;> simp
@[simp] theorem State.failover_anchor (s : State) : (s.failover).anchor = s.anchor := by
  simp only [State.failover]; (repeat' split) <;> simp
@[simp] theorem State.failover_synthTime (s : State) : (s.failover).synthTime = s.synthTime := by
  simp only [State.failover]; (repeat' split) <;> simp
@[simp] theorem State.failover_gens (s : State) : (s.failover).gens = s.gens := by
  simp only [State.failover]; (repeat' split) <;> simp
@[simp] theorem State.failover_timecode (s : State) : (s.failover).timecode = s.timecode := by
  simp only [State.failover]; (repeat' split) <;> simp
@[simp] theorem State.failover_notices (s : State) : (s.failover).notices = s.notices := by
  simp only [State.failover]; (repeat' split) <;> simp
@[simp] theorem State.failover_port (s : State) : (s.failover).port = s.port := by
  simp only [State.failover]; (repeat' split) <;> simp

@[simp] theorem State.stopSynth_pending (s : State) : (s.stopSynth).pending = s.pending := by
  simp [State.stopSynth]
@[simp] theorem State.stopSynth_link (s : State) : (s.stopSynth).link = s.link := by
  simp [State.stopSynth]
@[simp] theorem State.stopSynth_peers (s : State) : (s.stopSynth).peers = s.peers := by
  simp [State.stopSynth]
@[simp] theorem State.stopSynth_agreement (s : State) : (s.stopSynth).agreement = s.agreement := by
  simp [State.stopSynth]
@[simp] theorem State.stopSynth_discipline (s : State) : (s.stopSynth).discipline = s.discipline := by
  simp [State.stopSynth]
@[simp] theorem State.stopSynth_station (s : State) : (s.stopSynth).station = s.station := by
  simp [State.stopSynth]
@[simp] theorem State.stopSynth_anchor (s : State) : (s.stopSynth).anchor = s.anchor := by
  simp [State.stopSynth]
@[simp] theorem State.stopSynth_synthTime (s : State) : (s.stopSynth).synthTime = s.synthTime := by
  simp [State.stopSynth]
@[simp] theorem State.stopSynth_gens (s : State) : (s.stopSynth).gens = s.gens := by
  simp [State.stopSynth]
@[simp] theorem State.stopSynth_timecode (s : State) : (s.stopSynth).timecode = s.timecode := by
  simp [State.stopSynth]
@[simp] theorem State.stopSynth_notices (s : State) : (s.stopSynth).notices = s.notices := by
  simp [State.stopSynth]
@[simp] theorem State.stopSynth_port (s : State) : (s.stopSynth).port = s.port := by
  simp [State.stopSynth]

@[simp] theorem State.standbyRule_pending (s : State) : (s.standbyRule).pending = s.pending := by
  simp only [State.standbyRule]; (repeat' split) <;> simp
@[simp] theorem State.standbyRule_link (s : State) : (s.standbyRule).link = s.link := by
  simp only [State.standbyRule]; (repeat' split) <;> simp
@[simp] theorem State.standbyRule_peers (s : State) : (s.standbyRule).peers = s.peers := by
  simp only [State.standbyRule]; (repeat' split) <;> simp
@[simp] theorem State.standbyRule_agreement (s : State) : (s.standbyRule).agreement = s.agreement := by
  simp only [State.standbyRule]; (repeat' split) <;> simp
@[simp] theorem State.standbyRule_discipline (s : State) : (s.standbyRule).discipline = s.discipline := by
  simp only [State.standbyRule]; (repeat' split) <;> simp
@[simp] theorem State.standbyRule_station (s : State) : (s.standbyRule).station = s.station := by
  simp only [State.standbyRule]; (repeat' split) <;> simp
@[simp] theorem State.standbyRule_anchor (s : State) : (s.standbyRule).anchor = s.anchor := by
  simp only [State.standbyRule]; (repeat' split) <;> simp
@[simp] theorem State.standbyRule_synthTime (s : State) : (s.standbyRule).synthTime = s.synthTime := by
  simp only [State.standbyRule]; (repeat' split) <;> simp
@[simp] theorem State.standbyRule_gens (s : State) : (s.standbyRule).gens = s.gens := by
  simp only [State.standbyRule]; (repeat' split) <;> simp
@[simp] theorem State.standbyRule_timecode (s : State) : (s.standbyRule).timecode = s.timecode := by
  simp only [State.standbyRule]; (repeat' split) <;> simp
@[simp] theorem State.standbyRule_notices (s : State) : (s.standbyRule).notices = s.notices := by
  simp only [State.standbyRule]; (repeat' split) <;> simp
@[simp] theorem State.standbyRule_port (s : State) : (s.standbyRule).port = s.port := by
  simp only [State.standbyRule]; (repeat' split) <;> simp

@[simp] theorem State.standbyLoss_pending (s : State) : (s.standbyLoss).pending = s.pending := by
  simp [State.standbyLoss]
@[simp] theorem State.standbyLoss_peers (s : State) : (s.standbyLoss).peers = s.peers := by
  simp [State.standbyLoss]
@[simp] theorem State.standbyLoss_agreement (s : State) : (s.standbyLoss).agreement = s.agreement := by
  simp [State.standbyLoss]
@[simp] theorem State.standbyLoss_station (s : State) : (s.standbyLoss).station = s.station := by
  simp [State.standbyLoss]
@[simp] theorem State.standbyLoss_synthTime (s : State) : (s.standbyLoss).synthTime = s.synthTime := by
  simp [State.standbyLoss]
@[simp] theorem State.standbyLoss_timecode (s : State) : (s.standbyLoss).timecode = s.timecode := by
  simp [State.standbyLoss]
@[simp] theorem State.standbyLoss_port (s : State) : (s.standbyLoss).port = s.port := by
  simp [State.standbyLoss]

@[simp] theorem State.abandonLock_pending (s : State) : (s.abandonLock).pending = s.pending := by
  simp only [State.abandonLock]; (repeat' split) <;> simp
@[simp] theorem State.abandonLock_peers (s : State) : (s.abandonLock).peers = s.peers := by
  simp only [State.abandonLock]; (repeat' split) <;> simp
@[simp] theorem State.abandonLock_agreement (s : State) : (s.abandonLock).agreement = s.agreement := by
  simp only [State.abandonLock]; (repeat' split) <;> simp
@[simp] theorem State.abandonLock_station (s : State) : (s.abandonLock).station = s.station := by
  simp only [State.abandonLock]; (repeat' split) <;> simp
@[simp] theorem State.abandonLock_synthTime (s : State) : (s.abandonLock).synthTime = s.synthTime := by
  simp only [State.abandonLock]; (repeat' split) <;> simp
@[simp] theorem State.abandonLock_timecode (s : State) : (s.abandonLock).timecode = s.timecode := by
  simp only [State.abandonLock]; (repeat' split) <;> simp
@[simp] theorem State.abandonLock_port (s : State) : (s.abandonLock).port = s.port := by
  simp only [State.abandonLock]; (repeat' split) <;> simp

@[simp] theorem State.startUpLock_pending (s : State) : (s.startUpLock).pending = s.pending := by
  simp only [State.startUpLock]; (repeat' split) <;> simp
@[simp] theorem State.startUpLock_link (s : State) : (s.startUpLock).link = s.link := by
  simp only [State.startUpLock]; (repeat' split) <;> simp
@[simp] theorem State.startUpLock_peers (s : State) : (s.startUpLock).peers = s.peers := by
  simp only [State.startUpLock]; (repeat' split) <;> simp
@[simp] theorem State.startUpLock_agreement (s : State) : (s.startUpLock).agreement = s.agreement := by
  simp only [State.startUpLock]; (repeat' split) <;> simp
@[simp] theorem State.startUpLock_discipline (s : State) : (s.startUpLock).discipline = s.discipline := by
  simp only [State.startUpLock]; (repeat' split) <;> simp
@[simp] theorem State.startUpLock_station (s : State) : (s.startUpLock).station = s.station := by
  simp only [State.startUpLock]; (repeat' split) <;> simp
@[simp] theorem State.startUpLock_anchor (s : State) : (s.startUpLock).anchor = s.anchor := by
  simp only [State.startUpLock]; (repeat' split) <;> simp
@[simp] theorem State.startUpLock_synthTime (s : State) : (s.startUpLock).synthTime = s.synthTime := by
  simp only [State.startUpLock]; (repeat' split) <;> simp
@[simp] theorem State.startUpLock_gens (s : State) : (s.startUpLock).gens = s.gens := by
  simp only [State.startUpLock]; (repeat' split) <;> simp
@[simp] theorem State.startUpLock_timecode (s : State) : (s.startUpLock).timecode = s.timecode := by
  simp only [State.startUpLock]; (repeat' split) <;> simp
@[simp] theorem State.startUpLock_notices (s : State) : (s.startUpLock).notices = s.notices := by
  simp only [State.startUpLock]; (repeat' split) <;> simp
@[simp] theorem State.startUpLock_port (s : State) : (s.startUpLock).port = s.port := by
  simp only [State.startUpLock]; (repeat' split) <;> simp

@[simp] theorem State.completeLock_pending (s : State) : (s.completeLock).pending = s.pending := by
  simp [State.completeLock]
@[simp] theorem State.completeLock_link (s : State) : (s.completeLock).link = s.link := by
  simp [State.completeLock]
@[simp] theorem State.completeLock_peers (s : State) : (s.completeLock).peers = s.peers := by
  simp [State.completeLock]
@[simp] theorem State.completeLock_agreement (s : State) : (s.completeLock).agreement = s.agreement := by
  simp [State.completeLock]
@[simp] theorem State.completeLock_discipline (s : State) : (s.completeLock).discipline = s.discipline := by
  simp [State.completeLock]
@[simp] theorem State.completeLock_station (s : State) : (s.completeLock).station = s.station := by
  simp [State.completeLock]
@[simp] theorem State.completeLock_anchor (s : State) : (s.completeLock).anchor = s.anchor := by
  simp [State.completeLock]
@[simp] theorem State.completeLock_synthTime (s : State) : (s.completeLock).synthTime = s.synthTime := by
  simp [State.completeLock]
@[simp] theorem State.completeLock_gens (s : State) : (s.completeLock).gens = s.gens := by
  simp [State.completeLock]
@[simp] theorem State.completeLock_timecode (s : State) : (s.completeLock).timecode = s.timecode := by
  simp [State.completeLock]
@[simp] theorem State.completeLock_notices (s : State) : (s.completeLock).notices = s.notices := by
  simp [State.completeLock]
@[simp] theorem State.completeLock_port (s : State) : (s.completeLock).port = s.port := by
  simp [State.completeLock]

@[simp] theorem State.move_pending (st : StationState) (c : Cause) (s : State) : (s.move st c).pending = s.pending := by
  simp [State.move]
@[simp] theorem State.move_peers (st : StationState) (c : Cause) (s : State) : (s.move st c).peers = s.peers := by
  simp [State.move]
@[simp] theorem State.move_agreement (st : StationState) (c : Cause) (s : State) : (s.move st c).agreement = s.agreement := by
  simp [State.move]
@[simp] theorem State.move_discipline (st : StationState) (c : Cause) (s : State) : (s.move st c).discipline = s.discipline := by
  simp [State.move]
@[simp] theorem State.move_anchor (st : StationState) (c : Cause) (s : State) : (s.move st c).anchor = s.anchor := by
  simp [State.move]
@[simp] theorem State.move_source (st : StationState) (c : Cause) (s : State) : (s.move st c).source = s.source := by
  simp [State.move]
@[simp] theorem State.move_synthTime (st : StationState) (c : Cause) (s : State) : (s.move st c).synthTime = s.synthTime := by
  simp [State.move]
@[simp] theorem State.move_gens (st : StationState) (c : Cause) (s : State) : (s.move st c).gens = s.gens := by
  simp [State.move]
@[simp] theorem State.move_timecode (st : StationState) (c : Cause) (s : State) : (s.move st c).timecode = s.timecode := by
  simp [State.move]
@[simp] theorem State.move_port (st : StationState) (c : Cause) (s : State) : (s.move st c).port = s.port := by
  simp [State.move]

@[simp] theorem State.clearCounts_pending (s : State) : (s.clearCounts).pending = s.pending := by
  simp [State.clearCounts]
@[simp] theorem State.clearCounts_link (s : State) : (s.clearCounts).link = s.link := by
  simp [State.clearCounts]
@[simp] theorem State.clearCounts_peers (s : State) : (s.clearCounts).peers = s.peers := by
  simp [State.clearCounts]
@[simp] theorem State.clearCounts_discipline (s : State) : (s.clearCounts).discipline = s.discipline := by
  simp [State.clearCounts]
@[simp] theorem State.clearCounts_station (s : State) : (s.clearCounts).station = s.station := by
  simp [State.clearCounts]
@[simp] theorem State.clearCounts_anchor (s : State) : (s.clearCounts).anchor = s.anchor := by
  simp [State.clearCounts]
@[simp] theorem State.clearCounts_source (s : State) : (s.clearCounts).source = s.source := by
  simp [State.clearCounts]
@[simp] theorem State.clearCounts_synthTime (s : State) : (s.clearCounts).synthTime = s.synthTime := by
  simp [State.clearCounts]
@[simp] theorem State.clearCounts_gens (s : State) : (s.clearCounts).gens = s.gens := by
  simp [State.clearCounts]
@[simp] theorem State.clearCounts_timecode (s : State) : (s.clearCounts).timecode = s.timecode := by
  simp [State.clearCounts]
@[simp] theorem State.clearCounts_notices (s : State) : (s.clearCounts).notices = s.notices := by
  simp [State.clearCounts]
@[simp] theorem State.clearCounts_port (s : State) : (s.clearCounts).port = s.port := by
  simp [State.clearCounts]

@[simp] theorem State.enterStandby_pending (c : Cause) (s : State) : (s.enterStandby c).pending = s.pending := by
  simp only [State.enterStandby]; (repeat' split) <;> simp
@[simp] theorem State.enterStandby_peers (c : Cause) (s : State) : (s.enterStandby c).peers = s.peers := by
  simp only [State.enterStandby]; (repeat' split) <;> simp
@[simp] theorem State.enterStandby_agreement (c : Cause) (s : State) : (s.enterStandby c).agreement = s.agreement := by
  simp only [State.enterStandby]; (repeat' split) <;> simp
@[simp] theorem State.enterStandby_synthTime (c : Cause) (s : State) : (s.enterStandby c).synthTime = s.synthTime := by
  simp only [State.enterStandby]; (repeat' split) <;> simp
@[simp] theorem State.enterStandby_timecode (c : Cause) (s : State) : (s.enterStandby c).timecode = s.timecode := by
  simp only [State.enterStandby]; (repeat' split) <;> simp
@[simp] theorem State.enterStandby_port (c : Cause) (s : State) : (s.enterStandby c).port = s.port := by
  simp only [State.enterStandby]; (repeat' split) <;> simp

@[simp] theorem State.enterStalled_pending (s : State) : (s.enterStalled).pending = s.pending := by
  simp [State.enterStalled]
@[simp] theorem State.enterStalled_synthTime (s : State) : (s.enterStalled).synthTime = s.synthTime := by
  simp [State.enterStalled]
@[simp] theorem State.enterStalled_port (s : State) : (s.enterStalled).port = s.port := by
  simp [State.enterStalled]

@[simp] theorem State.enterStarting_pending (c : Cause) (s : State) : (s.enterStarting c).pending = s.pending := by
  simp only [State.enterStarting]; (repeat' split) <;> simp
@[simp] theorem State.enterStarting_synthTime (c : Cause) (s : State) : (s.enterStarting c).synthTime = s.synthTime := by
  simp only [State.enterStarting]; (repeat' split) <;> simp
@[simp] theorem State.enterStarting_port (c : Cause) (s : State) : (s.enterStarting c).port = s.port := by
  simp only [State.enterStarting]; (repeat' split) <;> simp

@[simp] theorem State.enterListen_pending (c : Cause) (s : State) : (s.enterListen c).pending = s.pending := by
  simp [State.enterListen]
@[simp] theorem State.enterListen_peers (c : Cause) (s : State) : (s.enterListen c).peers = s.peers := by
  simp [State.enterListen]
@[simp] theorem State.enterListen_agreement (c : Cause) (s : State) : (s.enterListen c).agreement = s.agreement := by
  simp [State.enterListen]
@[simp] theorem State.enterListen_discipline (c : Cause) (s : State) : (s.enterListen c).discipline = s.discipline := by
  simp [State.enterListen]
@[simp] theorem State.enterListen_anchor (c : Cause) (s : State) : (s.enterListen c).anchor = s.anchor := by
  simp [State.enterListen]
@[simp] theorem State.enterListen_source (c : Cause) (s : State) : (s.enterListen c).source = s.source := by
  simp [State.enterListen]
@[simp] theorem State.enterListen_synthTime (c : Cause) (s : State) : (s.enterListen c).synthTime = s.synthTime := by
  simp [State.enterListen]
@[simp] theorem State.enterListen_gens (c : Cause) (s : State) : (s.enterListen c).gens = s.gens := by
  simp [State.enterListen]
@[simp] theorem State.enterListen_timecode (c : Cause) (s : State) : (s.enterListen c).timecode = s.timecode := by
  simp [State.enterListen]
@[simp] theorem State.enterListen_port (c : Cause) (s : State) : (s.enterListen c).port = s.port := by
  simp [State.enterListen]

@[simp] theorem State.enterFounding_pending (c : Cause) (s : State) : (s.enterFounding c).pending = s.pending := by
  simp [State.enterFounding]
@[simp] theorem State.enterFounding_peers (c : Cause) (s : State) : (s.enterFounding c).peers = s.peers := by
  simp [State.enterFounding]
@[simp] theorem State.enterFounding_discipline (c : Cause) (s : State) : (s.enterFounding c).discipline = s.discipline := by
  simp [State.enterFounding]
@[simp] theorem State.enterFounding_anchor (c : Cause) (s : State) : (s.enterFounding c).anchor = s.anchor := by
  simp [State.enterFounding]
@[simp] theorem State.enterFounding_source (c : Cause) (s : State) : (s.enterFounding c).source = s.source := by
  simp [State.enterFounding]
@[simp] theorem State.enterFounding_synthTime (c : Cause) (s : State) : (s.enterFounding c).synthTime = s.synthTime := by
  simp [State.enterFounding]
@[simp] theorem State.enterFounding_gens (c : Cause) (s : State) : (s.enterFounding c).gens = s.gens := by
  simp [State.enterFounding]
@[simp] theorem State.enterFounding_timecode (c : Cause) (s : State) : (s.enterFounding c).timecode = s.timecode := by
  simp [State.enterFounding]
@[simp] theorem State.enterFounding_port (c : Cause) (s : State) : (s.enterFounding c).port = s.port := by
  simp [State.enterFounding]

@[simp] theorem State.enterJoining_pending (c : Cause) (s : State) : (s.enterJoining c).pending = s.pending := by
  simp [State.enterJoining]
@[simp] theorem State.enterJoining_peers (c : Cause) (s : State) : (s.enterJoining c).peers = s.peers := by
  simp [State.enterJoining]
@[simp] theorem State.enterJoining_anchor (c : Cause) (s : State) : (s.enterJoining c).anchor = s.anchor := by
  simp [State.enterJoining]
@[simp] theorem State.enterJoining_source (c : Cause) (s : State) : (s.enterJoining c).source = s.source := by
  simp [State.enterJoining]
@[simp] theorem State.enterJoining_synthTime (c : Cause) (s : State) : (s.enterJoining c).synthTime = s.synthTime := by
  simp [State.enterJoining]
@[simp] theorem State.enterJoining_gens (c : Cause) (s : State) : (s.enterJoining c).gens = s.gens := by
  simp [State.enterJoining]
@[simp] theorem State.enterJoining_timecode (c : Cause) (s : State) : (s.enterJoining c).timecode = s.timecode := by
  simp [State.enterJoining]
@[simp] theorem State.enterJoining_port (c : Cause) (s : State) : (s.enterJoining c).port = s.port := by
  simp [State.enterJoining]

@[simp] theorem State.enterAgreed_pending (c : Cause) (s : State) : (s.enterAgreed c).pending = s.pending := by
  simp [State.enterAgreed]
@[simp] theorem State.enterAgreed_peers (c : Cause) (s : State) : (s.enterAgreed c).peers = s.peers := by
  simp [State.enterAgreed]
@[simp] theorem State.enterAgreed_anchor (c : Cause) (s : State) : (s.enterAgreed c).anchor = s.anchor := by
  simp [State.enterAgreed]
@[simp] theorem State.enterAgreed_source (c : Cause) (s : State) : (s.enterAgreed c).source = s.source := by
  simp [State.enterAgreed]
@[simp] theorem State.enterAgreed_synthTime (c : Cause) (s : State) : (s.enterAgreed c).synthTime = s.synthTime := by
  simp [State.enterAgreed]
@[simp] theorem State.enterAgreed_timecode (c : Cause) (s : State) : (s.enterAgreed c).timecode = s.timecode := by
  simp [State.enterAgreed]
@[simp] theorem State.enterAgreed_port (c : Cause) (s : State) : (s.enterAgreed c).port = s.port := by
  simp [State.enterAgreed]

@[simp] theorem State.enterIsolated_pending (c : Cause) (s : State) : (s.enterIsolated c).pending = s.pending := by
  simp [State.enterIsolated]
@[simp] theorem State.enterIsolated_peers (c : Cause) (s : State) : (s.enterIsolated c).peers = s.peers := by
  simp [State.enterIsolated]
@[simp] theorem State.enterIsolated_agreement (c : Cause) (s : State) : (s.enterIsolated c).agreement = s.agreement := by
  simp [State.enterIsolated]
@[simp] theorem State.enterIsolated_discipline (c : Cause) (s : State) : (s.enterIsolated c).discipline = s.discipline := by
  simp [State.enterIsolated]
@[simp] theorem State.enterIsolated_anchor (c : Cause) (s : State) : (s.enterIsolated c).anchor = s.anchor := by
  simp [State.enterIsolated]
@[simp] theorem State.enterIsolated_source (c : Cause) (s : State) : (s.enterIsolated c).source = s.source := by
  simp [State.enterIsolated]
@[simp] theorem State.enterIsolated_synthTime (c : Cause) (s : State) : (s.enterIsolated c).synthTime = s.synthTime := by
  simp [State.enterIsolated]
@[simp] theorem State.enterIsolated_gens (c : Cause) (s : State) : (s.enterIsolated c).gens = s.gens := by
  simp [State.enterIsolated]
@[simp] theorem State.enterIsolated_timecode (c : Cause) (s : State) : (s.enterIsolated c).timecode = s.timecode := by
  simp [State.enterIsolated]
@[simp] theorem State.enterIsolated_port (c : Cause) (s : State) : (s.enterIsolated c).port = s.port := by
  simp [State.enterIsolated]

@[simp] theorem State.enterWithdrawing_pending (c : Cause) (s : State) : (s.enterWithdrawing c).pending = s.pending := by
  simp [State.enterWithdrawing]
@[simp] theorem State.enterWithdrawing_peers (c : Cause) (s : State) : (s.enterWithdrawing c).peers = s.peers := by
  simp [State.enterWithdrawing]
@[simp] theorem State.enterWithdrawing_agreement (c : Cause) (s : State) : (s.enterWithdrawing c).agreement = s.agreement := by
  simp [State.enterWithdrawing]
@[simp] theorem State.enterWithdrawing_discipline (c : Cause) (s : State) : (s.enterWithdrawing c).discipline = s.discipline := by
  simp [State.enterWithdrawing]
@[simp] theorem State.enterWithdrawing_anchor (c : Cause) (s : State) : (s.enterWithdrawing c).anchor = s.anchor := by
  simp [State.enterWithdrawing]
@[simp] theorem State.enterWithdrawing_source (c : Cause) (s : State) : (s.enterWithdrawing c).source = s.source := by
  simp [State.enterWithdrawing]
@[simp] theorem State.enterWithdrawing_synthTime (c : Cause) (s : State) : (s.enterWithdrawing c).synthTime = s.synthTime := by
  simp [State.enterWithdrawing]
@[simp] theorem State.enterWithdrawing_gens (c : Cause) (s : State) : (s.enterWithdrawing c).gens = s.gens := by
  simp [State.enterWithdrawing]
@[simp] theorem State.enterWithdrawing_timecode (c : Cause) (s : State) : (s.enterWithdrawing c).timecode = s.timecode := by
  simp [State.enterWithdrawing]
@[simp] theorem State.enterWithdrawing_port (c : Cause) (s : State) : (s.enterWithdrawing c).port = s.port := by
  simp [State.enterWithdrawing]

@[simp] theorem State.foundClock_pending (s : State) : (s.foundClock).pending = s.pending := by
  simp only [State.foundClock]; (repeat' split) <;> simp
@[simp] theorem State.foundClock_agreement (s : State) : (s.foundClock).agreement = s.agreement := by
  simp only [State.foundClock]; (repeat' split) <;> simp
@[simp] theorem State.foundClock_station (s : State) : (s.foundClock).station = s.station := by
  simp only [State.foundClock]; (repeat' split) <;> simp
@[simp] theorem State.foundClock_source (s : State) : (s.foundClock).source = s.source := by
  simp only [State.foundClock]; (repeat' split) <;> simp
@[simp] theorem State.foundClock_synthTime (s : State) : (s.foundClock).synthTime = s.synthTime := by
  simp only [State.foundClock]; (repeat' split) <;> simp
@[simp] theorem State.foundClock_timecode (s : State) : (s.foundClock).timecode = s.timecode := by
  simp only [State.foundClock]; (repeat' split) <;> simp
@[simp] theorem State.foundClock_port (s : State) : (s.foundClock).port = s.port := by
  simp only [State.foundClock]; (repeat' split) <;> simp

@[simp] theorem State.keepListening_pending (s : State) : (s.keepListening).pending = s.pending := by
  simp only [State.keepListening]; (repeat' split) <;> simp
@[simp] theorem State.keepListening_link (s : State) : (s.keepListening).link = s.link := by
  simp only [State.keepListening]; (repeat' split) <;> simp
@[simp] theorem State.keepListening_peers (s : State) : (s.keepListening).peers = s.peers := by
  simp only [State.keepListening]; (repeat' split) <;> simp
@[simp] theorem State.keepListening_agreement (s : State) : (s.keepListening).agreement = s.agreement := by
  simp only [State.keepListening]; (repeat' split) <;> simp
@[simp] theorem State.keepListening_discipline (s : State) : (s.keepListening).discipline = s.discipline := by
  simp only [State.keepListening]; (repeat' split) <;> simp
@[simp] theorem State.keepListening_anchor (s : State) : (s.keepListening).anchor = s.anchor := by
  simp only [State.keepListening]; (repeat' split) <;> simp
@[simp] theorem State.keepListening_source (s : State) : (s.keepListening).source = s.source := by
  simp only [State.keepListening]; (repeat' split) <;> simp
@[simp] theorem State.keepListening_synthTime (s : State) : (s.keepListening).synthTime = s.synthTime := by
  simp only [State.keepListening]; (repeat' split) <;> simp
@[simp] theorem State.keepListening_gens (s : State) : (s.keepListening).gens = s.gens := by
  simp only [State.keepListening]; (repeat' split) <;> simp
@[simp] theorem State.keepListening_timecode (s : State) : (s.keepListening).timecode = s.timecode := by
  simp only [State.keepListening]; (repeat' split) <;> simp
@[simp] theorem State.keepListening_port (s : State) : (s.keepListening).port = s.port := by
  simp only [State.keepListening]; (repeat' split) <;> simp

@[simp] theorem State.listenExpiry_pending (s : State) : (s.listenExpiry).pending = s.pending := by
  simp only [State.listenExpiry]; (repeat' split) <;> simp
@[simp] theorem State.listenExpiry_source (s : State) : (s.listenExpiry).source = s.source := by
  simp only [State.listenExpiry]; (repeat' split) <;> simp
@[simp] theorem State.listenExpiry_synthTime (s : State) : (s.listenExpiry).synthTime = s.synthTime := by
  simp only [State.listenExpiry]; (repeat' split) <;> simp
@[simp] theorem State.listenExpiry_timecode (s : State) : (s.listenExpiry).timecode = s.timecode := by
  simp only [State.listenExpiry]; (repeat' split) <;> simp
@[simp] theorem State.listenExpiry_port (s : State) : (s.listenExpiry).port = s.port := by
  simp only [State.listenExpiry]; (repeat' split) <;> simp

@[simp] theorem State.actOnLoss_pending (s : State) : (s.actOnLoss).pending = s.pending := by
  simp only [State.actOnLoss]; (repeat' split) <;> simp
@[simp] theorem State.actOnLoss_synthTime (s : State) : (s.actOnLoss).synthTime = s.synthTime := by
  simp only [State.actOnLoss]; (repeat' split) <;> simp
@[simp] theorem State.actOnLoss_port (s : State) : (s.actOnLoss).port = s.port := by
  simp only [State.actOnLoss]; (repeat' split) <;> simp

@[simp] theorem State.actOnRecovery_pending (s : State) : (s.actOnRecovery).pending = s.pending := by
  simp only [State.actOnRecovery]; (repeat' split) <;> simp
@[simp] theorem State.actOnRecovery_synthTime (s : State) : (s.actOnRecovery).synthTime = s.synthTime := by
  simp only [State.actOnRecovery]; (repeat' split) <;> simp
@[simp] theorem State.actOnRecovery_port (s : State) : (s.actOnRecovery).port = s.port := by
  simp only [State.actOnRecovery]; (repeat' split) <;> simp

@[simp] theorem State.standbyRuleHere_pending (s : State) : (s.standbyRuleHere).pending = s.pending := by
  simp only [State.standbyRuleHere]; (repeat' split) <;> simp
@[simp] theorem State.standbyRuleHere_link (s : State) : (s.standbyRuleHere).link = s.link := by
  simp only [State.standbyRuleHere]; (repeat' split) <;> simp
@[simp] theorem State.standbyRuleHere_peers (s : State) : (s.standbyRuleHere).peers = s.peers := by
  simp only [State.standbyRuleHere]; (repeat' split) <;> simp
@[simp] theorem State.standbyRuleHere_agreement (s : State) : (s.standbyRuleHere).agreement = s.agreement := by
  simp only [State.standbyRuleHere]; (repeat' split) <;> simp
@[simp] theorem State.standbyRuleHere_discipline (s : State) : (s.standbyRuleHere).discipline = s.discipline := by
  simp only [State.standbyRuleHere]; (repeat' split) <;> simp
@[simp] theorem State.standbyRuleHere_station (s : State) : (s.standbyRuleHere).station = s.station := by
  simp only [State.standbyRuleHere]; (repeat' split) <;> simp
@[simp] theorem State.standbyRuleHere_anchor (s : State) : (s.standbyRuleHere).anchor = s.anchor := by
  simp only [State.standbyRuleHere]; (repeat' split) <;> simp
@[simp] theorem State.standbyRuleHere_synthTime (s : State) : (s.standbyRuleHere).synthTime = s.synthTime := by
  simp only [State.standbyRuleHere]; (repeat' split) <;> simp
@[simp] theorem State.standbyRuleHere_gens (s : State) : (s.standbyRuleHere).gens = s.gens := by
  simp only [State.standbyRuleHere]; (repeat' split) <;> simp
@[simp] theorem State.standbyRuleHere_timecode (s : State) : (s.standbyRuleHere).timecode = s.timecode := by
  simp only [State.standbyRuleHere]; (repeat' split) <;> simp
@[simp] theorem State.standbyRuleHere_notices (s : State) : (s.standbyRuleHere).notices = s.notices := by
  simp only [State.standbyRuleHere]; (repeat' split) <;> simp
@[simp] theorem State.standbyRuleHere_port (s : State) : (s.standbyRuleHere).port = s.port := by
  simp only [State.standbyRuleHere]; (repeat' split) <;> simp

@[simp] theorem State.integrate_pending (e : Int) (s : State) : (s.integrate e).pending = s.pending := by
  simp [State.integrate]
@[simp] theorem State.integrate_link (e : Int) (s : State) : (s.integrate e).link = s.link := by
  simp [State.integrate]
@[simp] theorem State.integrate_peers (e : Int) (s : State) : (s.integrate e).peers = s.peers := by
  simp [State.integrate]
@[simp] theorem State.integrate_agreement (e : Int) (s : State) : (s.integrate e).agreement = s.agreement := by
  simp [State.integrate]
@[simp] theorem State.integrate_station (e : Int) (s : State) : (s.integrate e).station = s.station := by
  simp [State.integrate]
@[simp] theorem State.integrate_anchor (e : Int) (s : State) : (s.integrate e).anchor = s.anchor := by
  simp [State.integrate]
@[simp] theorem State.integrate_source (e : Int) (s : State) : (s.integrate e).source = s.source := by
  simp [State.integrate]
@[simp] theorem State.integrate_synthTime (e : Int) (s : State) : (s.integrate e).synthTime = s.synthTime := by
  simp [State.integrate]
@[simp] theorem State.integrate_gens (e : Int) (s : State) : (s.integrate e).gens = s.gens := by
  simp [State.integrate]
@[simp] theorem State.integrate_timecode (e : Int) (s : State) : (s.integrate e).timecode = s.timecode := by
  simp [State.integrate]
@[simp] theorem State.integrate_port (e : Int) (s : State) : (s.integrate e).port = s.port := by
  simp [State.integrate]

@[simp] theorem State.loadHoldover_pending (s : State) : (s.loadHoldover).pending = s.pending := by
  simp only [State.loadHoldover]; (repeat' split) <;> simp
@[simp] theorem State.loadHoldover_link (s : State) : (s.loadHoldover).link = s.link := by
  simp only [State.loadHoldover]; (repeat' split) <;> simp
@[simp] theorem State.loadHoldover_peers (s : State) : (s.loadHoldover).peers = s.peers := by
  simp only [State.loadHoldover]; (repeat' split) <;> simp
@[simp] theorem State.loadHoldover_agreement (s : State) : (s.loadHoldover).agreement = s.agreement := by
  simp only [State.loadHoldover]; (repeat' split) <;> simp
@[simp] theorem State.loadHoldover_station (s : State) : (s.loadHoldover).station = s.station := by
  simp only [State.loadHoldover]; (repeat' split) <;> simp
@[simp] theorem State.loadHoldover_anchor (s : State) : (s.loadHoldover).anchor = s.anchor := by
  simp only [State.loadHoldover]; (repeat' split) <;> simp
@[simp] theorem State.loadHoldover_source (s : State) : (s.loadHoldover).source = s.source := by
  simp only [State.loadHoldover]; (repeat' split) <;> simp
@[simp] theorem State.loadHoldover_synthTime (s : State) : (s.loadHoldover).synthTime = s.synthTime := by
  simp only [State.loadHoldover]; (repeat' split) <;> simp
@[simp] theorem State.loadHoldover_gens (s : State) : (s.loadHoldover).gens = s.gens := by
  simp only [State.loadHoldover]; (repeat' split) <;> simp
@[simp] theorem State.loadHoldover_timecode (s : State) : (s.loadHoldover).timecode = s.timecode := by
  simp only [State.loadHoldover]; (repeat' split) <;> simp
@[simp] theorem State.loadHoldover_port (s : State) : (s.loadHoldover).port = s.port := by
  simp only [State.loadHoldover]; (repeat' split) <;> simp

@[simp] theorem State.chooseSlew_pending (a : Int) (s : State) : (s.chooseSlew a).pending = s.pending := by
  simp only [State.chooseSlew]; (repeat' split) <;> simp
@[simp] theorem State.chooseSlew_link (a : Int) (s : State) : (s.chooseSlew a).link = s.link := by
  simp only [State.chooseSlew]; (repeat' split) <;> simp
@[simp] theorem State.chooseSlew_peers (a : Int) (s : State) : (s.chooseSlew a).peers = s.peers := by
  simp only [State.chooseSlew]; (repeat' split) <;> simp
@[simp] theorem State.chooseSlew_agreement (a : Int) (s : State) : (s.chooseSlew a).agreement = s.agreement := by
  simp only [State.chooseSlew]; (repeat' split) <;> simp
@[simp] theorem State.chooseSlew_station (a : Int) (s : State) : (s.chooseSlew a).station = s.station := by
  simp only [State.chooseSlew]; (repeat' split) <;> simp
@[simp] theorem State.chooseSlew_anchor (a : Int) (s : State) : (s.chooseSlew a).anchor = s.anchor := by
  simp only [State.chooseSlew]; (repeat' split) <;> simp
@[simp] theorem State.chooseSlew_source (a : Int) (s : State) : (s.chooseSlew a).source = s.source := by
  simp only [State.chooseSlew]; (repeat' split) <;> simp
@[simp] theorem State.chooseSlew_synthTime (a : Int) (s : State) : (s.chooseSlew a).synthTime = s.synthTime := by
  simp only [State.chooseSlew]; (repeat' split) <;> simp
@[simp] theorem State.chooseSlew_gens (a : Int) (s : State) : (s.chooseSlew a).gens = s.gens := by
  simp only [State.chooseSlew]; (repeat' split) <;> simp
@[simp] theorem State.chooseSlew_timecode (a : Int) (s : State) : (s.chooseSlew a).timecode = s.timecode := by
  simp only [State.chooseSlew]; (repeat' split) <;> simp
@[simp] theorem State.chooseSlew_notices (a : Int) (s : State) : (s.chooseSlew a).notices = s.notices := by
  simp only [State.chooseSlew]; (repeat' split) <;> simp
@[simp] theorem State.chooseSlew_port (a : Int) (s : State) : (s.chooseSlew a).port = s.port := by
  simp only [State.chooseSlew]; (repeat' split) <;> simp

@[simp] theorem State.steerOnly_pending (a : Int) (s : State) : (s.steerOnly a).pending = s.pending := by
  simp only [State.steerOnly]; (repeat' split) <;> simp
@[simp] theorem State.steerOnly_link (a : Int) (s : State) : (s.steerOnly a).link = s.link := by
  simp only [State.steerOnly]; (repeat' split) <;> simp
@[simp] theorem State.steerOnly_peers (a : Int) (s : State) : (s.steerOnly a).peers = s.peers := by
  simp only [State.steerOnly]; (repeat' split) <;> simp
@[simp] theorem State.steerOnly_agreement (a : Int) (s : State) : (s.steerOnly a).agreement = s.agreement := by
  simp only [State.steerOnly]; (repeat' split) <;> simp
@[simp] theorem State.steerOnly_station (a : Int) (s : State) : (s.steerOnly a).station = s.station := by
  simp only [State.steerOnly]; (repeat' split) <;> simp
@[simp] theorem State.steerOnly_anchor (a : Int) (s : State) : (s.steerOnly a).anchor = s.anchor := by
  simp only [State.steerOnly]; (repeat' split) <;> simp
@[simp] theorem State.steerOnly_source (a : Int) (s : State) : (s.steerOnly a).source = s.source := by
  simp only [State.steerOnly]; (repeat' split) <;> simp
@[simp] theorem State.steerOnly_synthTime (a : Int) (s : State) : (s.steerOnly a).synthTime = s.synthTime := by
  simp only [State.steerOnly]; (repeat' split) <;> simp
@[simp] theorem State.steerOnly_gens (a : Int) (s : State) : (s.steerOnly a).gens = s.gens := by
  simp only [State.steerOnly]; (repeat' split) <;> simp
@[simp] theorem State.steerOnly_timecode (a : Int) (s : State) : (s.steerOnly a).timecode = s.timecode := by
  simp only [State.steerOnly]; (repeat' split) <;> simp
@[simp] theorem State.steerOnly_notices (a : Int) (s : State) : (s.steerOnly a).notices = s.notices := by
  simp only [State.steerOnly]; (repeat' split) <;> simp
@[simp] theorem State.steerOnly_port (a : Int) (s : State) : (s.steerOnly a).port = s.port := by
  simp only [State.steerOnly]; (repeat' split) <;> simp

@[simp] theorem State.setRestart_pending (s : State) : (s.setRestart).pending = s.pending := by
  simp [State.setRestart]
@[simp] theorem State.setRestart_link (s : State) : (s.setRestart).link = s.link := by
  simp [State.setRestart]
@[simp] theorem State.setRestart_peers (s : State) : (s.setRestart).peers = s.peers := by
  simp [State.setRestart]
@[simp] theorem State.setRestart_agreement (s : State) : (s.setRestart).agreement = s.agreement := by
  simp [State.setRestart]
@[simp] theorem State.setRestart_station (s : State) : (s.setRestart).station = s.station := by
  simp [State.setRestart]
@[simp] theorem State.setRestart_anchor (s : State) : (s.setRestart).anchor = s.anchor := by
  simp [State.setRestart]
@[simp] theorem State.setRestart_source (s : State) : (s.setRestart).source = s.source := by
  simp [State.setRestart]
@[simp] theorem State.setRestart_synthTime (s : State) : (s.setRestart).synthTime = s.synthTime := by
  simp [State.setRestart]
@[simp] theorem State.setRestart_gens (s : State) : (s.setRestart).gens = s.gens := by
  simp [State.setRestart]
@[simp] theorem State.setRestart_timecode (s : State) : (s.setRestart).timecode = s.timecode := by
  simp [State.setRestart]
@[simp] theorem State.setRestart_notices (s : State) : (s.setRestart).notices = s.notices := by
  simp [State.setRestart]
@[simp] theorem State.setRestart_port (s : State) : (s.setRestart).port = s.port := by
  simp [State.setRestart]

@[simp] theorem State.clearMark_pending (s : State) : (s.clearMark).pending = s.pending := by
  simp [State.clearMark]
@[simp] theorem State.clearMark_link (s : State) : (s.clearMark).link = s.link := by
  simp [State.clearMark]
@[simp] theorem State.clearMark_peers (s : State) : (s.clearMark).peers = s.peers := by
  simp [State.clearMark]
@[simp] theorem State.clearMark_agreement (s : State) : (s.clearMark).agreement = s.agreement := by
  simp [State.clearMark]
@[simp] theorem State.clearMark_station (s : State) : (s.clearMark).station = s.station := by
  simp [State.clearMark]
@[simp] theorem State.clearMark_anchor (s : State) : (s.clearMark).anchor = s.anchor := by
  simp [State.clearMark]
@[simp] theorem State.clearMark_source (s : State) : (s.clearMark).source = s.source := by
  simp [State.clearMark]
@[simp] theorem State.clearMark_synthTime (s : State) : (s.clearMark).synthTime = s.synthTime := by
  simp [State.clearMark]
@[simp] theorem State.clearMark_gens (s : State) : (s.clearMark).gens = s.gens := by
  simp [State.clearMark]
@[simp] theorem State.clearMark_timecode (s : State) : (s.clearMark).timecode = s.timecode := by
  simp [State.clearMark]
@[simp] theorem State.clearMark_notices (s : State) : (s.clearMark).notices = s.notices := by
  simp [State.clearMark]
@[simp] theorem State.clearMark_port (s : State) : (s.clearMark).port = s.port := by
  simp [State.clearMark]

@[simp] theorem State.applyRules_pending (e : Int) (m : Bool) (a : Int) (s : State) : (s.applyRules e m a).pending = s.pending := by
  simp only [State.applyRules]; (repeat' split) <;> simp
@[simp] theorem State.applyRules_agreement (e : Int) (m : Bool) (a : Int) (s : State) : (s.applyRules e m a).agreement = s.agreement := by
  simp only [State.applyRules]; (repeat' split) <;> simp
@[simp] theorem State.applyRules_station (e : Int) (m : Bool) (a : Int) (s : State) : (s.applyRules e m a).station = s.station := by
  simp only [State.applyRules]; (repeat' split) <;> simp
@[simp] theorem State.applyRules_source (e : Int) (m : Bool) (a : Int) (s : State) : (s.applyRules e m a).source = s.source := by
  simp only [State.applyRules]; (repeat' split) <;> simp
@[simp] theorem State.applyRules_synthTime (e : Int) (m : Bool) (a : Int) (s : State) : (s.applyRules e m a).synthTime = s.synthTime := by
  simp only [State.applyRules]; (repeat' split) <;> simp
@[simp] theorem State.applyRules_timecode (e : Int) (m : Bool) (a : Int) (s : State) : (s.applyRules e m a).timecode = s.timecode := by
  simp only [State.applyRules]; (repeat' split) <;> simp
@[simp] theorem State.applyRules_port (e : Int) (m : Bool) (a : Int) (s : State) : (s.applyRules e m a).port = s.port := by
  simp only [State.applyRules]; (repeat' split) <;> simp

@[simp] theorem State.recordEstimate_pending (s : State) : (s.recordEstimate).pending = s.pending := by
  simp [State.recordEstimate]
@[simp] theorem State.recordEstimate_link (s : State) : (s.recordEstimate).link = s.link := by
  simp [State.recordEstimate]
@[simp] theorem State.recordEstimate_peers (s : State) : (s.recordEstimate).peers = s.peers := by
  simp [State.recordEstimate]
@[simp] theorem State.recordEstimate_discipline (s : State) : (s.recordEstimate).discipline = s.discipline := by
  simp [State.recordEstimate]
@[simp] theorem State.recordEstimate_station (s : State) : (s.recordEstimate).station = s.station := by
  simp [State.recordEstimate]
@[simp] theorem State.recordEstimate_anchor (s : State) : (s.recordEstimate).anchor = s.anchor := by
  simp [State.recordEstimate]
@[simp] theorem State.recordEstimate_source (s : State) : (s.recordEstimate).source = s.source := by
  simp [State.recordEstimate]
@[simp] theorem State.recordEstimate_synthTime (s : State) : (s.recordEstimate).synthTime = s.synthTime := by
  simp [State.recordEstimate]
@[simp] theorem State.recordEstimate_gens (s : State) : (s.recordEstimate).gens = s.gens := by
  simp [State.recordEstimate]
@[simp] theorem State.recordEstimate_timecode (s : State) : (s.recordEstimate).timecode = s.timecode := by
  simp [State.recordEstimate]
@[simp] theorem State.recordEstimate_notices (s : State) : (s.recordEstimate).notices = s.notices := by
  simp [State.recordEstimate]
@[simp] theorem State.recordEstimate_port (s : State) : (s.recordEstimate).port = s.port := by
  simp [State.recordEstimate]

@[simp] theorem State.countShort_pending (s : State) : (s.countShort).pending = s.pending := by
  simp [State.countShort]
@[simp] theorem State.countShort_link (s : State) : (s.countShort).link = s.link := by
  simp [State.countShort]
@[simp] theorem State.countShort_peers (s : State) : (s.countShort).peers = s.peers := by
  simp [State.countShort]
@[simp] theorem State.countShort_discipline (s : State) : (s.countShort).discipline = s.discipline := by
  simp [State.countShort]
@[simp] theorem State.countShort_station (s : State) : (s.countShort).station = s.station := by
  simp [State.countShort]
@[simp] theorem State.countShort_anchor (s : State) : (s.countShort).anchor = s.anchor := by
  simp [State.countShort]
@[simp] theorem State.countShort_source (s : State) : (s.countShort).source = s.source := by
  simp [State.countShort]
@[simp] theorem State.countShort_synthTime (s : State) : (s.countShort).synthTime = s.synthTime := by
  simp [State.countShort]
@[simp] theorem State.countShort_gens (s : State) : (s.countShort).gens = s.gens := by
  simp [State.countShort]
@[simp] theorem State.countShort_timecode (s : State) : (s.countShort).timecode = s.timecode := by
  simp [State.countShort]
@[simp] theorem State.countShort_notices (s : State) : (s.countShort).notices = s.notices := by
  simp [State.countShort]
@[simp] theorem State.countShort_port (s : State) : (s.countShort).port = s.port := by
  simp [State.countShort]

@[simp] theorem State.merge_pending (s : State) : (s.merge).pending = s.pending := by
  simp [State.merge]
@[simp] theorem State.merge_anchor (s : State) : (s.merge).anchor = s.anchor := by
  simp [State.merge]
@[simp] theorem State.merge_source (s : State) : (s.merge).source = s.source := by
  simp [State.merge]
@[simp] theorem State.merge_synthTime (s : State) : (s.merge).synthTime = s.synthTime := by
  simp [State.merge]
@[simp] theorem State.merge_gens (s : State) : (s.merge).gens = s.gens := by
  simp [State.merge]
@[simp] theorem State.merge_timecode (s : State) : (s.merge).timecode = s.timecode := by
  simp [State.merge]
@[simp] theorem State.merge_port (s : State) : (s.merge).port = s.port := by
  simp [State.merge]

@[simp] theorem State.compareM_pending (e : Int) (s : State) : (s.compareM e).pending = s.pending := by
  simp [State.compareM]
@[simp] theorem State.compareM_link (e : Int) (s : State) : (s.compareM e).link = s.link := by
  simp [State.compareM]
@[simp] theorem State.compareM_peers (e : Int) (s : State) : (s.compareM e).peers = s.peers := by
  simp [State.compareM]
@[simp] theorem State.compareM_discipline (e : Int) (s : State) : (s.compareM e).discipline = s.discipline := by
  simp [State.compareM]
@[simp] theorem State.compareM_station (e : Int) (s : State) : (s.compareM e).station = s.station := by
  simp [State.compareM]
@[simp] theorem State.compareM_anchor (e : Int) (s : State) : (s.compareM e).anchor = s.anchor := by
  simp [State.compareM]
@[simp] theorem State.compareM_source (e : Int) (s : State) : (s.compareM e).source = s.source := by
  simp [State.compareM]
@[simp] theorem State.compareM_synthTime (e : Int) (s : State) : (s.compareM e).synthTime = s.synthTime := by
  simp [State.compareM]
@[simp] theorem State.compareM_gens (e : Int) (s : State) : (s.compareM e).gens = s.gens := by
  simp [State.compareM]
@[simp] theorem State.compareM_timecode (e : Int) (s : State) : (s.compareM e).timecode = s.timecode := by
  simp [State.compareM]
@[simp] theorem State.compareM_notices (e : Int) (s : State) : (s.compareM e).notices = s.notices := by
  simp [State.compareM]
@[simp] theorem State.compareM_port (e : Int) (s : State) : (s.compareM e).port = s.port := by
  simp [State.compareM]

@[simp] theorem State.shortAgreed_pending (a : Int) (s : State) : (s.shortAgreed a).pending = s.pending := by
  simp only [State.shortAgreed]; (repeat' split) <;> simp
@[simp] theorem State.shortAgreed_peers (a : Int) (s : State) : (s.shortAgreed a).peers = s.peers := by
  simp only [State.shortAgreed]; (repeat' split) <;> simp
@[simp] theorem State.shortAgreed_anchor (a : Int) (s : State) : (s.shortAgreed a).anchor = s.anchor := by
  simp only [State.shortAgreed]; (repeat' split) <;> simp
@[simp] theorem State.shortAgreed_source (a : Int) (s : State) : (s.shortAgreed a).source = s.source := by
  simp only [State.shortAgreed]; (repeat' split) <;> simp
@[simp] theorem State.shortAgreed_synthTime (a : Int) (s : State) : (s.shortAgreed a).synthTime = s.synthTime := by
  simp only [State.shortAgreed]; (repeat' split) <;> simp
@[simp] theorem State.shortAgreed_gens (a : Int) (s : State) : (s.shortAgreed a).gens = s.gens := by
  simp only [State.shortAgreed]; (repeat' split) <;> simp
@[simp] theorem State.shortAgreed_timecode (a : Int) (s : State) : (s.shortAgreed a).timecode = s.timecode := by
  simp only [State.shortAgreed]; (repeat' split) <;> simp
@[simp] theorem State.shortAgreed_port (a : Int) (s : State) : (s.shortAgreed a).port = s.port := by
  simp only [State.shortAgreed]; (repeat' split) <;> simp

@[simp] theorem State.settle_pending (s : State) : (s.settle).pending = s.pending := by
  simp only [State.settle]; (repeat' split) <;> simp
@[simp] theorem State.settle_peers (s : State) : (s.settle).peers = s.peers := by
  simp only [State.settle]; (repeat' split) <;> simp
@[simp] theorem State.settle_source (s : State) : (s.settle).source = s.source := by
  simp only [State.settle]; (repeat' split) <;> simp
@[simp] theorem State.settle_synthTime (s : State) : (s.settle).synthTime = s.synthTime := by
  simp only [State.settle]; (repeat' split) <;> simp
@[simp] theorem State.settle_timecode (s : State) : (s.settle).timecode = s.timecode := by
  simp only [State.settle]; (repeat' split) <;> simp
@[simp] theorem State.settle_port (s : State) : (s.settle).port = s.port := by
  simp only [State.settle]; (repeat' split) <;> simp

@[simp] theorem State.pointJoining_pending (s : State) : (s.pointJoining).pending = s.pending := by
  simp only [State.pointJoining]; (repeat' split) <;> simp
@[simp] theorem State.pointJoining_source (s : State) : (s.pointJoining).source = s.source := by
  simp only [State.pointJoining]; (repeat' split) <;> simp
@[simp] theorem State.pointJoining_synthTime (s : State) : (s.pointJoining).synthTime = s.synthTime := by
  simp only [State.pointJoining]; (repeat' split) <;> simp
@[simp] theorem State.pointJoining_timecode (s : State) : (s.pointJoining).timecode = s.timecode := by
  simp only [State.pointJoining]; (repeat' split) <;> simp
@[simp] theorem State.pointJoining_port (s : State) : (s.pointJoining).port = s.port := by
  simp only [State.pointJoining]; (repeat' split) <;> simp

@[simp] theorem State.takeAgreed_pending (e : Int) (a : Int) (s : State) : (s.takeAgreed e a).pending = s.pending := by
  simp only [State.takeAgreed]; (repeat' split) <;> simp
@[simp] theorem State.takeAgreed_source (e : Int) (a : Int) (s : State) : (s.takeAgreed e a).source = s.source := by
  simp only [State.takeAgreed]; (repeat' split) <;> simp
@[simp] theorem State.takeAgreed_synthTime (e : Int) (a : Int) (s : State) : (s.takeAgreed e a).synthTime = s.synthTime := by
  simp only [State.takeAgreed]; (repeat' split) <;> simp
@[simp] theorem State.takeAgreed_timecode (e : Int) (a : Int) (s : State) : (s.takeAgreed e a).timecode = s.timecode := by
  simp only [State.takeAgreed]; (repeat' split) <;> simp
@[simp] theorem State.takeAgreed_port (e : Int) (a : Int) (s : State) : (s.takeAgreed e a).port = s.port := by
  simp only [State.takeAgreed]; (repeat' split) <;> simp

@[simp] theorem State.pointAgreed_pending (a : Int) (s : State) : (s.pointAgreed a).pending = s.pending := by
  simp only [State.pointAgreed]; (repeat' split) <;> simp
@[simp] theorem State.pointAgreed_source (a : Int) (s : State) : (s.pointAgreed a).source = s.source := by
  simp only [State.pointAgreed]; (repeat' split) <;> simp
@[simp] theorem State.pointAgreed_synthTime (a : Int) (s : State) : (s.pointAgreed a).synthTime = s.synthTime := by
  simp only [State.pointAgreed]; (repeat' split) <;> simp
@[simp] theorem State.pointAgreed_timecode (a : Int) (s : State) : (s.pointAgreed a).timecode = s.timecode := by
  simp only [State.pointAgreed]; (repeat' split) <;> simp
@[simp] theorem State.pointAgreed_port (a : Int) (s : State) : (s.pointAgreed a).port = s.port := by
  simp only [State.pointAgreed]; (repeat' split) <;> simp

@[simp] theorem State.pointIsolated_pending (a : Int) (s : State) : (s.pointIsolated a).pending = s.pending := by
  simp only [State.pointIsolated]; (repeat' split) <;> simp
@[simp] theorem State.pointIsolated_source (a : Int) (s : State) : (s.pointIsolated a).source = s.source := by
  simp only [State.pointIsolated]; (repeat' split) <;> simp
@[simp] theorem State.pointIsolated_synthTime (a : Int) (s : State) : (s.pointIsolated a).synthTime = s.synthTime := by
  simp only [State.pointIsolated]; (repeat' split) <;> simp
@[simp] theorem State.pointIsolated_timecode (a : Int) (s : State) : (s.pointIsolated a).timecode = s.timecode := by
  simp only [State.pointIsolated]; (repeat' split) <;> simp
@[simp] theorem State.pointIsolated_port (a : Int) (s : State) : (s.pointIsolated a).port = s.port := by
  simp only [State.pointIsolated]; (repeat' split) <;> simp

@[simp] theorem State.pointWithdrawing_pending (s : State) : (s.pointWithdrawing).pending = s.pending := by
  simp only [State.pointWithdrawing]; (repeat' split) <;> simp
@[simp] theorem State.pointWithdrawing_link (s : State) : (s.pointWithdrawing).link = s.link := by
  simp only [State.pointWithdrawing]; (repeat' split) <;> simp
@[simp] theorem State.pointWithdrawing_peers (s : State) : (s.pointWithdrawing).peers = s.peers := by
  simp only [State.pointWithdrawing]; (repeat' split) <;> simp
@[simp] theorem State.pointWithdrawing_discipline (s : State) : (s.pointWithdrawing).discipline = s.discipline := by
  simp only [State.pointWithdrawing]; (repeat' split) <;> simp
@[simp] theorem State.pointWithdrawing_station (s : State) : (s.pointWithdrawing).station = s.station := by
  simp only [State.pointWithdrawing]; (repeat' split) <;> simp
@[simp] theorem State.pointWithdrawing_anchor (s : State) : (s.pointWithdrawing).anchor = s.anchor := by
  simp only [State.pointWithdrawing]; (repeat' split) <;> simp
@[simp] theorem State.pointWithdrawing_source (s : State) : (s.pointWithdrawing).source = s.source := by
  simp only [State.pointWithdrawing]; (repeat' split) <;> simp
@[simp] theorem State.pointWithdrawing_synthTime (s : State) : (s.pointWithdrawing).synthTime = s.synthTime := by
  simp only [State.pointWithdrawing]; (repeat' split) <;> simp
@[simp] theorem State.pointWithdrawing_gens (s : State) : (s.pointWithdrawing).gens = s.gens := by
  simp only [State.pointWithdrawing]; (repeat' split) <;> simp
@[simp] theorem State.pointWithdrawing_timecode (s : State) : (s.pointWithdrawing).timecode = s.timecode := by
  simp only [State.pointWithdrawing]; (repeat' split) <;> simp
@[simp] theorem State.pointWithdrawing_notices (s : State) : (s.pointWithdrawing).notices = s.notices := by
  simp only [State.pointWithdrawing]; (repeat' split) <;> simp
@[simp] theorem State.pointWithdrawing_port (s : State) : (s.pointWithdrawing).port = s.port := by
  simp only [State.pointWithdrawing]; (repeat' split) <;> simp

@[simp] theorem State.agreementPoint_pending (s : State) : (s.agreementPoint).pending = s.pending := by
  simp only [State.agreementPoint]; (repeat' split) <;> simp
@[simp] theorem State.agreementPoint_source (s : State) : (s.agreementPoint).source = s.source := by
  simp only [State.agreementPoint]; (repeat' split) <;> simp
@[simp] theorem State.agreementPoint_synthTime (s : State) : (s.agreementPoint).synthTime = s.synthTime := by
  simp only [State.agreementPoint]; (repeat' split) <;> simp
@[simp] theorem State.agreementPoint_timecode (s : State) : (s.agreementPoint).timecode = s.timecode := by
  simp only [State.agreementPoint]; (repeat' split) <;> simp
@[simp] theorem State.agreementPoint_port (s : State) : (s.agreementPoint).port = s.port := by
  simp only [State.agreementPoint]; (repeat' split) <;> simp

@[simp] theorem State.signal_pending (o : Option Nat) (s : State) : (s.signal o).pending = s.pending := by
  simp only [State.signal]; (repeat' split) <;> simp
@[simp] theorem State.signal_peers (o : Option Nat) (s : State) : (s.signal o).peers = s.peers := by
  simp only [State.signal]; (repeat' split) <;> simp
@[simp] theorem State.signal_agreement (o : Option Nat) (s : State) : (s.signal o).agreement = s.agreement := by
  simp only [State.signal]; (repeat' split) <;> simp
@[simp] theorem State.signal_discipline (o : Option Nat) (s : State) : (s.signal o).discipline = s.discipline := by
  simp only [State.signal]; (repeat' split) <;> simp
@[simp] theorem State.signal_station (o : Option Nat) (s : State) : (s.signal o).station = s.station := by
  simp only [State.signal]; (repeat' split) <;> simp
@[simp] theorem State.signal_anchor (o : Option Nat) (s : State) : (s.signal o).anchor = s.anchor := by
  simp only [State.signal]; (repeat' split) <;> simp
@[simp] theorem State.signal_source (o : Option Nat) (s : State) : (s.signal o).source = s.source := by
  simp only [State.signal]; (repeat' split) <;> simp
@[simp] theorem State.signal_synthTime (o : Option Nat) (s : State) : (s.signal o).synthTime = s.synthTime := by
  simp only [State.signal]; (repeat' split) <;> simp
@[simp] theorem State.signal_gens (o : Option Nat) (s : State) : (s.signal o).gens = s.gens := by
  simp only [State.signal]; (repeat' split) <;> simp
@[simp] theorem State.signal_timecode (o : Option Nat) (s : State) : (s.signal o).timecode = s.timecode := by
  simp only [State.signal]; (repeat' split) <;> simp
@[simp] theorem State.signal_notices (o : Option Nat) (s : State) : (s.signal o).notices = s.notices := by
  simp only [State.signal]; (repeat' split) <;> simp
@[simp] theorem State.signal_port (o : Option Nat) (s : State) : (s.signal o).port = s.port := by
  simp only [State.signal]; (repeat' split) <;> simp

@[simp] theorem State.countListen_pending (s : State) : (s.countListen).pending = s.pending := by
  simp only [State.countListen]; (repeat' split) <;> simp
@[simp] theorem State.countListen_source (s : State) : (s.countListen).source = s.source := by
  simp only [State.countListen]; (repeat' split) <;> simp
@[simp] theorem State.countListen_synthTime (s : State) : (s.countListen).synthTime = s.synthTime := by
  simp only [State.countListen]; (repeat' split) <;> simp
@[simp] theorem State.countListen_timecode (s : State) : (s.countListen).timecode = s.timecode := by
  simp only [State.countListen]; (repeat' split) <;> simp
@[simp] theorem State.countListen_port (s : State) : (s.countListen).port = s.port := by
  simp only [State.countListen]; (repeat' split) <;> simp

@[simp] theorem State.countFounding_pending (s : State) : (s.countFounding).pending = s.pending := by
  simp only [State.countFounding]; (repeat' split) <;> simp
@[simp] theorem State.countFounding_peers (s : State) : (s.countFounding).peers = s.peers := by
  simp only [State.countFounding]; (repeat' split) <;> simp
@[simp] theorem State.countFounding_anchor (s : State) : (s.countFounding).anchor = s.anchor := by
  simp only [State.countFounding]; (repeat' split) <;> simp
@[simp] theorem State.countFounding_source (s : State) : (s.countFounding).source = s.source := by
  simp only [State.countFounding]; (repeat' split) <;> simp
@[simp] theorem State.countFounding_synthTime (s : State) : (s.countFounding).synthTime = s.synthTime := by
  simp only [State.countFounding]; (repeat' split) <;> simp
@[simp] theorem State.countFounding_timecode (s : State) : (s.countFounding).timecode = s.timecode := by
  simp only [State.countFounding]; (repeat' split) <;> simp
@[simp] theorem State.countFounding_port (s : State) : (s.countFounding).port = s.port := by
  simp only [State.countFounding]; (repeat' split) <;> simp

@[simp] theorem State.countSilence_pending (s : State) : (s.countSilence).pending = s.pending := by
  simp only [State.countSilence]; (repeat' split) <;> simp
@[simp] theorem State.countSilence_peers (s : State) : (s.countSilence).peers = s.peers := by
  simp only [State.countSilence]; (repeat' split) <;> simp
@[simp] theorem State.countSilence_agreement (s : State) : (s.countSilence).agreement = s.agreement := by
  simp only [State.countSilence]; (repeat' split) <;> simp
@[simp] theorem State.countSilence_discipline (s : State) : (s.countSilence).discipline = s.discipline := by
  simp only [State.countSilence]; (repeat' split) <;> simp
@[simp] theorem State.countSilence_anchor (s : State) : (s.countSilence).anchor = s.anchor := by
  simp only [State.countSilence]; (repeat' split) <;> simp
@[simp] theorem State.countSilence_source (s : State) : (s.countSilence).source = s.source := by
  simp only [State.countSilence]; (repeat' split) <;> simp
@[simp] theorem State.countSilence_synthTime (s : State) : (s.countSilence).synthTime = s.synthTime := by
  simp only [State.countSilence]; (repeat' split) <;> simp
@[simp] theorem State.countSilence_gens (s : State) : (s.countSilence).gens = s.gens := by
  simp only [State.countSilence]; (repeat' split) <;> simp
@[simp] theorem State.countSilence_timecode (s : State) : (s.countSilence).timecode = s.timecode := by
  simp only [State.countSilence]; (repeat' split) <;> simp
@[simp] theorem State.countSilence_port (s : State) : (s.countSilence).port = s.port := by
  simp only [State.countSilence]; (repeat' split) <;> simp

@[simp] theorem State.controlClose_pending (s : State) : (s.controlClose).pending = s.pending := by
  simp only [State.controlClose]; (repeat' split) <;> simp
@[simp] theorem State.controlClose_source (s : State) : (s.controlClose).source = s.source := by
  simp only [State.controlClose]; (repeat' split) <;> simp
@[simp] theorem State.controlClose_synthTime (s : State) : (s.controlClose).synthTime = s.synthTime := by
  simp only [State.controlClose]; (repeat' split) <;> simp
@[simp] theorem State.controlClose_timecode (s : State) : (s.controlClose).timecode = s.timecode := by
  simp only [State.controlClose]; (repeat' split) <;> simp
@[simp] theorem State.controlClose_port (s : State) : (s.controlClose).port = s.port := by
  simp only [State.controlClose]; (repeat' split) <;> simp

@[simp] theorem State.closeRound_pending (o : Option Nat) (s : State) : (s.closeRound o).pending = s.pending := by
  simp [State.closeRound]
@[simp] theorem State.closeRound_source (o : Option Nat) (s : State) : (s.closeRound o).source = s.source := by
  simp [State.closeRound]
@[simp] theorem State.closeRound_synthTime (o : Option Nat) (s : State) : (s.closeRound o).synthTime = s.synthTime := by
  simp [State.closeRound]
@[simp] theorem State.closeRound_timecode (o : Option Nat) (s : State) : (s.closeRound o).timecode = s.timecode := by
  simp [State.closeRound]
@[simp] theorem State.closeRound_port (o : Option Nat) (s : State) : (s.closeRound o).port = s.port := by
  simp [State.closeRound]

@[simp] theorem State.passRound_pending (o : Option Nat) (s : State) : (s.passRound o).pending = s.pending := by
  simp [State.passRound]
@[simp] theorem State.passRound_source (o : Option Nat) (s : State) : (s.passRound o).source = s.source := by
  simp [State.passRound]
@[simp] theorem State.passRound_synthTime (o : Option Nat) (s : State) : (s.passRound o).synthTime = s.synthTime := by
  simp [State.passRound]
@[simp] theorem State.passRound_timecode (o : Option Nat) (s : State) : (s.passRound o).timecode = s.timecode := by
  simp [State.passRound]
@[simp] theorem State.passRound_port (o : Option Nat) (s : State) : (s.passRound o).port = s.port := by
  simp [State.passRound]

@[simp] theorem State.settleOwed_pending (k : Nat) (s : State) : (s.settleOwed k).pending = s.pending := by
  induction k generalizing s with
  | zero => unfold State.settleOwed; split <;> rfl
  | succ k ih => unfold State.settleOwed; split <;> simp [ih]
@[simp] theorem State.settleOwed_source (k : Nat) (s : State) : (s.settleOwed k).source = s.source := by
  induction k generalizing s with
  | zero => unfold State.settleOwed; split <;> rfl
  | succ k ih => unfold State.settleOwed; split <;> simp [ih]
@[simp] theorem State.settleOwed_synthTime (k : Nat) (s : State) : (s.settleOwed k).synthTime = s.synthTime := by
  induction k generalizing s with
  | zero => unfold State.settleOwed; split <;> rfl
  | succ k ih => unfold State.settleOwed; split <;> simp [ih]
@[simp] theorem State.settleOwed_timecode (k : Nat) (s : State) : (s.settleOwed k).timecode = s.timecode := by
  induction k generalizing s with
  | zero => unfold State.settleOwed; split <;> rfl
  | succ k ih => unfold State.settleOwed; split <;> simp [ih]
@[simp] theorem State.settleOwed_port (k : Nat) (s : State) : (s.settleOwed k).port = s.port := by
  induction k generalizing s with
  | zero => unfold State.settleOwed; split <;> rfl
  | succ k ih => unfold State.settleOwed; split <;> simp [ih]

@[simp] theorem State.roundEnd_pending (o : Option Nat) (s : State) : (s.roundEnd o).pending = s.pending := by
  simp [State.roundEnd]
@[simp] theorem State.roundEnd_source (o : Option Nat) (s : State) : (s.roundEnd o).source = s.source := by
  simp [State.roundEnd]
@[simp] theorem State.roundEnd_synthTime (o : Option Nat) (s : State) : (s.roundEnd o).synthTime = s.synthTime := by
  simp [State.roundEnd]
@[simp] theorem State.roundEnd_timecode (o : Option Nat) (s : State) : (s.roundEnd o).timecode = s.timecode := by
  simp [State.roundEnd]
@[simp] theorem State.roundEnd_port (o : Option Nat) (s : State) : (s.roundEnd o).port = s.port := by
  simp [State.roundEnd]

end Sys2Proof.Machine
end

