-- ==== Sys2Proof/Laws/Tables.lean ====
section
/-! SUPPORT. Reading the fixed tables that `tabulate` and `put` make. -/

namespace Sys2Proof.Machine

/-- A place of a tabulated table. -/
theorem tabulate_get {α : Type} (n : Nat) (f : Fin n → α) (i : Fin n) : (tabulate n f)[i] = f i := by
  simp [tabulate]

/-- A place of a table with one place replaced. -/
theorem put_get {α : Type} {n : Nat} (v : Vector α n) (i j : Fin n) (a : α) :
    (put v i a)[j] = if i = j then a else v[j] := by
  unfold put
  by_cases h : i = j
  · subst h; simp
  · have : i.val ≠ j.val := fun e => h (Fin.ext e)
    simp [h, this]

/-- A place of a tabulated table, by its number. -/
theorem tabulate_getElem {α : Type} (n : Nat) (f : Fin n → α) (i : Nat) (h : i < n) : (tabulate n f)[i] = f ⟨i, h⟩ :=
  tabulate_get n f ⟨i, h⟩

/-- A place of a table with one place replaced, by its number. -/
theorem put_getElem {α : Type} {n : Nat} (v : Vector α n) (i : Fin n) (j : Nat) (h : j < n) (a : α) :
    (put v i a)[j] = if i.val = j then a else v[j] := by
  have e := put_get v i ⟨j, h⟩ a
  simp only [Fin.getElem_fin] at e
  rw [e]; congr 1; simp [Fin.ext_iff]

end Sys2Proof.Machine
end

