-- ==== Sys2Proof/Laws/Kept.lean ====
section
/-! SUPPORT. What a command can do, said once: a property that every elementary change of the state keeps is kept by every
command (`Kept.stepExec`). -/

namespace Sys2Proof.Machine

/-- A property of the state that each elementary change inside a round end keeps. -/
structure KeptInRound (P : State → Prop) : Prop where
  raise : ∀ n s, P s → P (s.raise n)
  setRestart : ∀ s, P s → P s.setRestart
  enterListen : ∀ c s, P s → P (s.enterListen c)
  enterJoining : ∀ c s, P s → s.station.state.transmits = true → P (s.enterJoining c)
  enterAgreed : ∀ c s, P s → s.station.state.transmits = true → P (s.enterAgreed c)
  enterIsolated : ∀ c s, P s → s.station.state.transmits = true → P (s.enterIsolated c)
  integrateTo : ∀ c l m b s, P s → P ((s.enterJoining c).integrateClock l m b)
  found : ∀ s, P s → s.mayFound = true → P (s.enterFounding .expired).foundClock
  station : ∀ t s, P s → t.state = s.station.state → t.lockTime = s.station.lockTime →
    t.listenTimer.isSome = s.station.listenTimer.isSome → P (s.setStation t)
  signal : ∀ i s, P s → P (s.signal i)
  closeTable : ∀ s, P s → P s.closeTable
  agreement : ∀ a s, P s → P (s.setAgreement a)
  examineLabels : ∀ c s, P s → s.station.state.transmits = true → P (s.examineLabels c)
  steerOnly : ∀ x s, P s → P (s.steerOnly x)
  applyRules : ∀ e m x s, P s → P (s.applyRules e m x)
  exchange : ∀ s, P s → P (s.setPeers (s.peers.exchange s.otherGroup s.contributors))
  takeMajorityOffset : ∀ s, P s → P s.takeMajorityOffset
  settleNone : ∀ s, P s → P (s.setLink { s.link with owedRoundEnd := none })

/-- A property of the state that each elementary change of the part keeps. -/
structure Kept (P : State → Prop) : Prop extends KeptInRound P where
  elapse : ∀ e s, P s → P (s.elapse e)
  port : ∀ p s, P s → p.record = s.port.record → P (s.setPort p)
  stationReset : ∀ b s, P s → P (s.stationReset b)
  powerOn : ∀ b s, P s → P (s.powerOn b)
  takeConfig : ∀ r s, P s → s.station.state = .standby → r.prefersEnabled = true →
    s.source.disablesLock r = false → P (s.takeConfig r)
  loadHoldover : ∀ s, P s → P s.loadHoldover
  takeSeed : ∀ x y s, P s → P (s.takeSeed x y)
  takeLabel : ∀ x s, P s → P (s.takeLabel x)
  takeChange : ∀ x y s, P s → s.station.state.transmits = true → P (s.takeChange x y)
  select : ∀ x s, P s → (s.source.get x).enabled = true → P (s.select x)
  enable : ∀ m v s, P s → P (s.setNotices (s.notices.enable m v))
  take : ∀ s, P s → P (s.setNotices s.notices.take)
  enterStandby : ∀ c s, P s → P (s.enterStandby c)
  enterStarting : ∀ c s, P s → P (s.enterStarting c)
  enterStalled : ∀ s, P s → P s.enterStalled
  enterWithdrawing : ∀ c s, P s → s.station.state.transmits = true → P (s.enterWithdrawing c)
  noteArrival : ∀ x s, P s → P (s.noteArrival x)
  handToPeer : ∀ x l b s, P s → (∀ i : Fin 32, i ≠ x → (s.peers.entries[i]).tag ≠ some b.tag) → x ≠ s.config.slot →
    P (s.handToPeer x l b)
  readBack : ∀ r s, P s → P (s.setLink { s.link with readBack := r })
  judge : ∀ j n s, P s → P (s.setLink { s.link with judged := j, collisions := n })
  build : ∀ x n s, P s → P (s.build x n)
  beginFrame : ∀ b s, P s → P (s.beginFrame b)
  releaseFrame : ∀ x s, P s → P (s.releaseFrame x)
  closeWindow : ∀ s, P s → P s.closeWindow
  applyDue : ∀ s, P s → P s.applyDue
  capture : ∀ x t s, P s → s.reading = some t → P (s.capture x t)
  dropAnchor : ∀ c s, P s → P (s.dropAnchor c)
  slewNone : ∀ s, P s → P (s.setDiscipline { s.discipline with slew := none })
  windowEnd : ∀ s, P s → P (s.setSource s.source.windowEnd)
  failover : ∀ s, P s → P s.failover
  loseClock : ∀ s, P s → s.station.state = .standby → P s.loseClock
  standbyRule : ∀ s, P s → P s.standbyRule
  stopSynth : ∀ s, P s → P s.stopSynth
  completeLock : ∀ s, P s → s.source.locking = true → P s.completeLock
  markFailed : ∀ x s, P s → s.source.lockSource = some x → s.source.locking = true → P (s.markFailed x)
  gens : ∀ g s, P s → P (s.setGens g)
  timecode : ∀ t s, P s → P (s.setTimecode t)

namespace KeptInRound
variable {P : State → Prop} (k : KeptInRound P)
include k

theorem raiseAll (ns : List Notice) (s : State) (h : P s) : P (s.raiseAll ns) := by
  induction ns generalizing s with
  | nil => exact h
  | cons n ns ih => exact ih _ (k.raise _ _ h)

theorem controlClose (s : State) (h : P s) : P s.controlClose := by
  simp only [State.controlClose]; split
  · rename_i hs
    simp only [State.countListen]; split
    · exact h
    · rename_i n hn
      have h1 : P (s.setStation { s.station with listenTimer := some (n - 1) }) := k.station _ _ h rfl rfl (by simp [hn])
      split
      · simp only [State.listenExpiry]; split
        · rename_i hm; exact k.found _ h1 hm
        · simp only [State.keepListening]; split
          · exact k.station _ _ h1 rfl rfl (by simp)
          · exact k.station _ _ (k.raise _ _ h1) rfl rfl (by simp)
      · exact h1
  · rename_i hs
    simp only [State.countFounding]; split
    · exact k.enterAgreed _ _ h (by simp [hs, StationState.transmits])
    · have h1 : P (s.setStation { s.station with foundingTimer := s.station.foundingTimer + 1 }) := k.station _ _ h rfl rfl rfl
      split
      · exact k.enterListen _ _ h1
      · exact h1
  · simp only [State.countSilence]; split
    · have h1 : P (s.setStation { s.station with silenceCount := s.station.silenceCount + 1 }) := k.station _ _ h rfl rfl rfl
      split
      · exact k.enterListen _ _ h1
      · exact h1
    · exact k.station _ _ h rfl rfl rfl
  all_goals exact h

theorem takeAgreed (e x) (s : State) (h : P s) (ht : s.station.state.transmits = true) : P (s.takeAgreed e x) := by
  simp only [State.takeAgreed]
  have h1 : P ((s.compareM e).applyRules e (s.beyondM e) x) := k.applyRules _ _ _ _ (k.agreement _ _ h)
  split
  · exact k.enterJoining _ _ h1 (by simpa using ht)
  · exact h1
theorem recordEstimate (s : State) (h : P s) : P s.recordEstimate := k.agreement _ _ h
theorem countShort (s : State) (h : P s) : P s.countShort := k.agreement _ _ h

theorem pointAgreed (x) (s : State) (h : P s) (ht : s.station.state.transmits = true) : P (s.pointAgreed x) := by
  simp only [State.pointAgreed]; split
  · split
    · simp only [State.merge]
      exact k.raise _ _ (k.enterJoining _ _ (k.exchange _ (k.recordEstimate _ h)) (by simpa using ht))
    · exact k.takeAgreed _ _ _ (k.recordEstimate _ h) (by simpa using ht)
  · simp only [State.shortAgreed]
    have h1 := k.steerOnly x _ (k.countShort _ h)
    split
    · exact k.enterIsolated _ _ h1 (by simpa using ht)
    · exact h1

theorem pointIsolated (x) (s : State) (h : P s) (ht : s.station.state.transmits = true) : P (s.pointIsolated x) := by
  simp only [State.pointIsolated]; split
  · refine k.takeAgreed _ _ _ (k.setRestart _ (k.enterAgreed _ _ (k.recordEstimate _ h) (by simpa using ht))) ?_
    simp [State.enterAgreed, State.move, StationState.transmits]
  · exact k.countShort _ h

theorem pointJoining (s : State) (h : P s) (ht : s.station.state.transmits = true) : P s.pointJoining := by
  simp only [State.pointJoining]; split
  · simp only [State.settle]
    have h0 : P (s.recordEstimate.applyRules s.estimate false 0) := k.applyRules _ _ _ _ (k.recordEstimate _ h)
    have h1 : ∀ n, P ((s.recordEstimate.applyRules s.estimate false 0).setStation
        { (s.recordEstimate.applyRules s.estimate false 0).station with settleCount := n }) :=
      fun n => k.station _ _ h0 rfl rfl rfl
    split
    · split
      · exact k.takeMajorityOffset _ (k.enterAgreed _ _ (h1 _) (by simpa using ht))
      · exact h1 _
    · exact h0
  · exact k.station _ _ (k.countShort _ h) rfl rfl rfl

theorem afterLabels (x : Int × List Notice) (t : State) (h : P t) (ht : t.station.state.transmits = true) :
    P (if (t.raiseAll x.2).station.state = .agreed then (t.raiseAll x.2).pointAgreed x.1
      else (t.raiseAll x.2).pointIsolated x.1) := by
  split
  · exact k.pointAgreed _ _ (k.raiseAll _ _ h) (by simpa using ht)
  · exact k.pointIsolated _ _ (k.raiseAll _ _ h) (by simpa using ht)

theorem agreementPoint (s : State) (h : P s) : P s.agreementPoint := by
  unfold State.agreementPoint
  cases hs : s.station.state with
  | joining => exact k.pointJoining _ (k.examineLabels _ _ h (by simp [hs, StationState.transmits])) (by simp [hs, StationState.transmits])
  | agreed => exact k.afterLabels _ _ (k.examineLabels _ _ h (by simp [hs, StationState.transmits])) (by simp [hs, StationState.transmits])
  | isolated => exact k.afterLabels _ _ (k.examineLabels _ _ h (by simp [hs, StationState.transmits])) (by simp [hs, StationState.transmits])
  | withdrawing =>
    simp only [State.pointWithdrawing]; split
    · exact k.recordEstimate _ h
    · exact k.countShort _ h
  | standby => exact h
  | starting => exact h
  | listen => exact h
  | founding => exact h
  | stalled => exact h

theorem passRound (i) (s : State) (h : P s) : P (s.passRound i) :=
  k.agreementPoint _ (k.controlClose _ (k.closeTable _ (k.signal _ _ h)))

theorem settleOwed (n) (s : State) (h : P s) : P (s.settleOwed n) := by
  induction n generalizing s with
  | zero => unfold State.settleOwed; split <;> first | exact h | exact k.settleNone _ h
  | succ n ih =>
    unfold State.settleOwed; split
    · exact h
    · exact ih _ (k.passRound _ _ (k.settleNone _ h))

theorem roundEnd (i) (s : State) (h : P s) : P (s.roundEnd i) := k.settleOwed _ _ (k.passRound _ _ h)
theorem roundEndTo (f) (s : State) (h : P s) : P (s.roundEndTo f) := by
  simp only [State.roundEndTo]; repeat' split
  · exact k.roundEnd _ _ h
  all_goals exact h

theorem integrateTo' (c m b) (s : State) (h : P s) : P (s.integrateTo c m b) := k.settleOwed _ _ (k.integrateTo _ _ _ _ _ h)


end KeptInRound


/-- No entry but `x` holds tag `n`. -/
def NoTag (x : Fin 32) (n : Nat) (s : State) : Prop := ∀ i : Fin 32, i ≠ x → (s.peers.entries[i]).tag ≠ some n

theorem NoTag.of_peers {x n} {s t : State} (h : NoTag x n s) (e : t.peers = s.peers) : NoTag x n t := by
  simpa [NoTag, e] using h
theorem PeerEntry.close_tag (a : Nat) (p : PeerEntry) : (p.close a).tag = p.tag ∨ (p.close a).tag = none := by
  simp only [PeerEntry.close]
  split
  · left; rfl
  · cases h : p.closing a <;> simp [PeerEntry.openRound, CloseChange.applyTo, PeerEntry.emptied, PeerEntry.empty, PeerEntry.countStreaks, PeerEntry.age] <;> (repeat' split) <;> simp
theorem NoTag.stepClock {x n} {s : State} (h : NoTag x n s) (a : Int) : NoTag x n (s.stepClock a) := by
  unfold State.stepClock
  split
  · exact h
  · split
    · exact h
    · intro i hi
      simp only [State.openOccasion_peers, State.applyDue_peers, State.stepGens_peers, PeerTable.onStep, tabulate_get]
      simp only [PeerEntry.onStep]; split <;> exact h i hi
theorem NoTag.stepNoticed {x n} {s : State} (h : NoTag x n s) (o) (a : Int) : NoTag x n (s.stepNoticed o a) := by
  unfold State.stepNoticed; split
  · exact h.stepClock 0
  · exact NoTag.of_peers (h.stepClock a) (by simp)
theorem State.integrateTo_port (c m b) (s : State) : (s.integrateTo c m b).port = s.port := by
  simp only [State.integrateTo, State.settleOwed_port]
  unfold State.integrateClock; split <;> simp
theorem noTag_kept (x : Fin 32) (n : Nat) : KeptInRound (NoTag x n) where
  raise _ _ h := h.of_peers (by simp)
  setRestart _ h := h.of_peers (by simp)
  enterListen _ _ h := h.of_peers (by simp)
  enterJoining _ _ h _ := h.of_peers (by simp)
  enterAgreed _ _ h _ := h.of_peers (by simp)
  enterIsolated _ _ h _ := h.of_peers (by simp)
  integrateTo c l m b s h := by
    unfold State.integrateClock
    have h : NoTag x n (s.enterJoining c) := h.of_peers (by simp)
    split
    · exact h.of_peers (by simp)
    · exact h.stepClock _
    · exact h.stepClock _
  found s h _ := by
    have h : NoTag x n (s.enterFounding .expired) := h.of_peers (by simp)
    unfold State.foundClock; split
    · exact h.stepNoticed _ _
    · exact h.of_peers (by simp)
    · exact h
  station _ _ h _ _ _ := h
  signal _ _ h := h.of_peers (by simp)
  closeTable s h := by
    intro i hi
    simp only [State.closeTable, State.raiseAll_peers, State.setPeers_peers, tabulate_get]
    rcases PeerEntry.close_tag s.config.admission s.peers.entries[i] with e | e
    · rw [e]; exact h i hi
    · rw [e]; simp
  agreement _ _ h := h
  examineLabels _ _ h _ := h.of_peers (by simp)
  steerOnly _ _ h := h.of_peers (by simp)
  applyRules e m y s h := by
    unfold State.applyRules
    split
    · exact NoTag.stepNoticed (h.of_peers (by simp)) _ _
    · exact h.of_peers (by simp)
    · exact NoTag.stepNoticed (h.of_peers (by simp)) _ _
    · exact h.of_peers (by simp)
    · exact h.of_peers (by simp)
    · exact h.of_peers (by simp)
  exchange s h := by
    intro i hi
    simp only [State.setPeers_peers, PeerTable.exchange, tabulate_get]
    (repeat' split) <;> exact h i hi
  takeMajorityOffset _ h := h.of_peers (by simp)
  settleNone _ h := h

theorem firstFailure_none {cs : List (Nat × Bool)} (h : firstFailure cs = none) : ∀ c ∈ cs, c.2 = true := by
  intro c hc
  simp only [firstFailure, Option.map_eq_none_iff, List.find?_eq_none] at h
  simpa using h c hc

theorem prefersEnabled_parse (ps : List Byte) (h : preferredOk ps = true) : (parseConfig ps).prefersEnabled = true := by
  unfold preferredOk at h
  unfold ConfigRecord.prefersEnabled parseConfig
  split at h <;> simp_all

theorem configTaken (ps : List Byte) (s : State) (h : s.refuseConfigure ps = none) :
    s.station.state = .standby ∧ (parseConfig ps).prefersEnabled = true ∧ s.source.disablesLock (parseConfig ps) = false := by
  simp only [State.refuseConfigure, gate] at h
  by_cases hl : (ps.length == 89) = true
  · by_cases hs : s.station.state = .standby
    · cases hf : firstFailure (configChecks ps) with
      | some i => simp [hl, hs, hf] at h
      | none =>
        have := firstFailure_none hf (20, preferredOk ps) (by simp [configChecks])
        refine ⟨hs, prefersEnabled_parse _ this, ?_⟩
        simpa [hl, hs, hf] using h
    · simp [hl, hs] at h
  · simp [hl] at h

namespace Kept
variable {P : State → Prop} (k : Kept P)
include k

theorem request (e : Elapsed) (s : State) (h : P s) : P (s.request e) := by
  simp only [State.request, State.endTransaction]
  refine k.port _ _ (k.elapse _ _ ?_) rfl
  split
  · exact k.stationReset _ _ h
  · exact h

theorem answer (st d) (s : State) (h : P s) : P (s.answer st d) := k.port _ _ h rfl

theorem serve (r d) (f : State → State) (s : State) (h : P s) (hf : r = none → P (f s)) : P (s.serve r d f) := by
  simp only [State.serve]; split
  · exact k.answer _ _ _ h
  · exact k.answer _ _ _ (hf rfl)

theorem actOnLoss (s : State) (h : P s) : P s.actOnLoss := by
  simp only [State.actOnLoss]; split
  · split
    · exact k.loseClock _ (k.stopSynth _ h) (by simpa)
    · exact h
    all_goals exact k.enterStalled _ h
  · exact h
theorem actOnRecovery (s : State) (h : P s) : P s.actOnRecovery := by
  simp only [State.actOnRecovery]; split
  · exact k.enterStarting _ _ h
  · exact h
theorem standbyRuleHere (s : State) (h : P s) : P s.standbyRuleHere := by
  simp only [State.standbyRuleHere]; split
  · exact k.standbyRule _ h
  · exact h

theorem handOn (m b) (s : State) (h : P s) (hc : s.clashes b.slot b = false) (hs : b.slot ≠ s.config.slot) :
    P (s.handOn m b) := by
  have ht : ∀ i : Fin 32, i ≠ b.slot → (s.peers.entries[i]).tag ≠ some b.tag := by
    intro i hi
    simp only [State.clashes, PeerTable.heldElsewhere, Bool.or_eq_false_iff, List.any_eq_false] at hc
    have := hc.2 i (List.mem_finRange i)
    simpa [hi] using this
  unfold State.handOn; split
  · refine k.handToPeer _ _ _ _ (k.noteArrival _ _ (k.integrateTo' _ _ _ _ h)) ?_ ?_
    · have := (noTag_kept b.slot b.tag).integrateTo' ‹_› m b _ ht
      exact this
    · have e : ((s.integrateTo ‹_› m b).noteArrival b.slot).config = s.config := by
        simp [State.config, State.noteArrival, State.integrateTo_port]
      rw [e]; exact hs
  · exact k.handToPeer _ _ _ _ (k.noteArrival _ _ h) (by simpa [State.noteArrival] using ht)
      (by simpa [State.noteArrival, State.config] using hs)

theorem collided (s : State) (h : P s) : P s.collided := by
  unfold State.collided; repeat' split
  · exact k.enterListen _ _ (k.station _ _ h rfl rfl rfl)
  · exact k.raise _ _ (k.enterStandby _ _ h)
  · exact h

theorem readBackFrame (n b) (s : State) (h : P s) : P (s.readBackFrame n b) := by
  unfold State.readBackFrame; repeat' split
  · exact h
  · exact k.readBack _ _ h
  · unfold State.judgeAnew; simp only []; split
    · exact k.collided _ (k.judge _ _ _ h)
    · exact k.judge _ _ _ h
  · exact h

theorem frameCompletes (bytes m) (s : State) (h : P s) : P (s.frameCompletes bytes m) := by
  unfold State.frameCompletes
  split
  · exact h
  · split
    · split
      · exact k.readBackFrame _ _ _ h
      · rename_i hne
        simp only [State.windowedFrame]; split
        · exact h
        · repeat' split
          · exact h
          · exact k.raise _ _ h
          · exact h
          · rename_i h1 h2 h3
            have h1 := not_not.1 h1
            exact k.handOn _ _ _ h (by simpa [h1] using h2) (by rw [h1]; exact hne)
    · simp only [State.openFrame]; split
      · exact h
      · repeat' split
        · exact k.raise _ _ h
        · simp only [State.ownSlotBeacon]; split
          · exact k.raise _ _ (k.enterStandby _ _ h)
          · exact h
        · exact k.raise _ _ h
        · rename_i h1 h2 h3
          exact k.handOn _ _ _ h (by simp only [State.clashes]; simp_all) h2
    all_goals exact h

theorem departIf (s : State) (h : P s) : P s.departIf := by
  unfold State.departIf; repeat' split
  · unfold State.countDeparture; simp only []; repeat' split
    · exact k.enterStandby _ _ (k.station _ _ (k.releaseFrame _ _ h) rfl rfl rfl)
    · exact k.station _ _ (k.releaseFrame _ _ h) rfl rfl rfl
    · exact k.releaseFrame _ _ h
  · exact k.releaseFrame _ _ h
  · exact h

theorem endWindow (s : State) (h : P s) : P s.endWindow := by
  have h1 := k.closeWindow _ h
  unfold State.endWindow; split
  · exact k.collided _ h1
  · exact h1

theorem takeBoundary (i) (s : State) (h : P s) : P (s.takeBoundary i) := by
  have ha : ∀ (s : State), P s → P (s.armOne i) := by
    intro s h
    unfold State.armOne; repeat' split
    · exact h
    · exact k.gens _ _ h
    · exact h
  have hr : ∀ set nb a, P (s.runBoundary i set nb a) := by
    intro set nb a
    unfold State.runBoundary; simp only []
    apply k.gens
    unfold State.formWord
    have h1 := k.raiseAll (Numbering.notices (s.gens[i].numbering set s.discipline.rate nb a) i) _ h
    simp only []
    repeat' split
    · exact k.raise _ _ (k.timecode _ _ h1)
    · exact k.timecode _ _ h1
    · exact h1
  unfold State.takeBoundary; repeat' split
  · unfold State.endBoundary; simp only []; split
    · exact ha _ (k.gens _ _ h)
    · exact k.gens _ _ h
  all_goals first | exact hr _ _ _ | exact h

theorem stepExec (c : Instr) (s t : State) (h : P s) (he : exec c s = .next t) : P t := by
  cases c
  case configure e ps =>
    simp only [exec, execConfigure, Host.Outcome.next.injEq] at he
    subst he
    refine k.serve _ _ _ _ (k.request _ _ h) fun hr => ?_
    have := configTaken _ _ hr
    exact k.takeConfig _ _ (k.request _ _ h) this.1 this.2.1 this.2.2
  case join e ps =>
    simp only [exec, execJoin, Host.Outcome.next.injEq] at he
    subst he
    refine k.serve _ _ _ _ (k.request _ _ h) fun hr => ?_
    simp only [State.takeJoin]; split
    · exact k.enterListen _ _ (k.loadHoldover _ (k.request _ _ h))
    · exact k.enterStarting _ _ (k.loadHoldover _ (k.request _ _ h))
  case withdraw e ps =>
    simp only [exec, execWithdraw, Host.Outcome.next.injEq] at he
    subst he
    refine k.serve _ _ _ _ (k.request _ _ h) fun hr => ?_
    have := k.request e _ h
    simp only [State.takeWithdraw]; split
    all_goals first
      | exact k.enterWithdrawing _ _ this (by simp [*, StationState.transmits])
      | exact k.enterStandby _ _ this
      | exact this
  case reset e ps =>
    simp only [exec, execReset, Host.Outcome.next.injEq] at he
    subst he
    exact k.serve _ _ _ _ (k.request _ _ h) fun _ => k.port _ _ (k.request _ _ h) rfl
  case seedTime e ps =>
    simp only [exec, execSeedTime, Host.Outcome.next.injEq] at he
    subst he
    exact k.serve _ _ _ _ (k.request _ _ h) fun _ => k.takeSeed _ _ _ (k.request _ _ h)
  case anchorLabel e ps =>
    simp only [exec, execAnchorLabel, Host.Outcome.next.injEq] at he
    subst he
    exact k.serve _ _ _ _ (k.request _ _ h) fun _ => k.takeLabel _ _ (k.request _ _ h)
  case labelChange e ps =>
    simp only [exec, execLabelChange, Host.Outcome.next.injEq] at he
    subst he
    refine k.serve _ _ _ _ (k.request _ _ h) fun hr => k.takeChange _ _ _ (k.request _ _ h) ?_
    simp only [State.refuseChange, gate] at hr
    by_cases hs : (s.request e).station.state = .agreed
    · simp [hs, StationState.transmits]
    · simp [hs] at hr; split at hr <;> simp at hr
  case selectSource e ps =>
    simp only [exec, execSelectSource, Host.Outcome.next.injEq] at he
    subst he
    refine k.serve _ _ _ _ (k.request _ _ h) fun hr => ?_
    simp only [State.takeSelect]; repeat' split
    · exact k.request _ _ h
    · rename_i x hx hne
      refine k.select _ _ (k.request _ _ h) ?_
      simp only [State.refuseSelect, hx, gate, SourceUnit.refuseSource, hne] at hr
      by_cases hen : ((s.request e).source.get x).enabled = true
      · exact hen
      · simp [hen] at hr; split at hr <;> simp at hr
    · exact k.request _ _ h
  case resync e ps =>
    simp only [exec, execResync, Host.Outcome.next.injEq] at he
    subst he
    exact k.serve _ _ _ _ (k.request _ _ h) fun _ => k.setRestart _ (k.request _ _ h)
  case enableNotices e ps =>
    simp only [exec, execEnableNotices, Host.Outcome.next.injEq] at he
    subst he
    exact k.serve _ _ _ _ (k.request _ _ h) fun _ => k.enable _ _ _ (k.request _ _ h)
  case nextNotice e ps =>
    simp only [exec, execNextNotice, Host.Outcome.next.injEq] at he
    subst he
    exact k.serve _ _ _ _ (k.request _ _ h) fun _ => k.take _ (k.request _ _ h)
  case readStatus e ps =>
    simp only [exec, execReadStatus, Host.Outcome.next.injEq] at he
    subst he
    exact k.serve _ _ _ _ (k.request _ _ h) fun _ => k.request _ _ h
  case readPeer e ps =>
    simp only [exec, execReadPeer, Host.Outcome.next.injEq] at he
    subst he
    exact k.serve _ _ _ _ (k.request _ _ h) fun _ => k.request _ _ h
  case readGenerator e ps =>
    simp only [exec, execReadGenerator, Host.Outcome.next.injEq] at he
    subst he
    exact k.serve _ _ _ _ (k.request _ _ h) fun _ => k.request _ _ h
  case readTime e ps =>
    simp only [exec, execReadTime, Host.Outcome.next.injEq] at he
    subst he
    exact k.serve _ _ _ _ (k.request _ _ h) fun _ => k.port _ _ (k.request _ _ h) rfl
  case unknownCommand e c ps =>
    simp only [exec, execUnknownCommand, Host.Outcome.next.injEq] at he
    subst he
    exact k.answer _ _ _ (k.request _ _ h)
  case transactionAbandoned e =>
    simp only [exec, execTransactionAbandoned, Host.Outcome.next.injEq] at he
    subst he
    exact k.port _ _ (k.request _ _ h) rfl
  case powerOnReset e b =>
    simp only [exec, execPowerOnReset, Host.Outcome.next.injEq] at he
    subst he
    exact k.powerOn _ _ h
  case stationReset e b =>
    simp only [exec, execStationReset, Host.Outcome.next.injEq] at he
    subst he
    exact k.stationReset _ _ (k.elapse _ _ h)
  case frameReceived e bs m =>
    simp only [exec, execFrameReceived, Host.Outcome.next.injEq] at he
    subst he
    exact k.frameCompletes _ _ _ (k.elapse _ _ h)
  case beaconBuild e =>
    simp only [exec, execBeaconBuild, Host.Outcome.next.injEq] at he
    subst he
    simp only [State.buildIf]; split
    · exact k.build _ _ _ (k.elapse _ _ h)
    · exact k.elapse _ _ h
  case frameStart e =>
    simp only [exec, execFrameStart, Host.Outcome.next.injEq] at he
    subst he
    simp only [State.frameIf]; split
    · exact k.beginFrame _ _ (k.elapse _ _ h)
    · exact k.elapse _ _ h
  case beaconDeparture e =>
    simp only [exec, execBeaconDeparture, Host.Outcome.next.injEq] at he
    subst he
    exact k.departIf _ (k.elapse _ _ h)
  case withdrawn e =>
    simp only [exec, execWithdrawn, Host.Outcome.next.injEq] at he
    subst he
    split
    · exact k.departIf _ (k.elapse _ _ h)
    · exact k.elapse _ _ h
  case ownWindowClose e =>
    simp only [exec, execOwnWindowClose, Host.Outcome.next.injEq] at he
    subst he
    unfold State.windowIf; split
    · exact k.endWindow _ (k.elapse _ _ h)
    · exact k.elapse _ _ h
  case collision e =>
    simp only [exec, execCollision, Host.Outcome.next.injEq] at he
    subst he
    split
    · exact k.endWindow _ (k.elapse _ _ h)
    · exact k.elapse _ _ h
  case roundEnd e =>
    simp only [exec, execRoundEnd, Host.Outcome.next.injEq] at he
    subst he
    unfold State.roundEndIf; split
    · exact k.roundEnd _ _ (k.elapse _ _ h)
    · exact k.elapse _ _ h
  case labelApplied e =>
    simp only [exec, execLabelApplied, Host.Outcome.next.injEq] at he
    subst he
    exact k.applyDue _ (k.elapse _ _ h)
  case anchorPulse e =>
    simp only [exec, execAnchorPulse, Host.Outcome.next.injEq] at he
    subst he
    have h1 := k.elapse e _ h
    unfold State.anchorPulse; repeat' split
    · exact k.capture _ _ _ h1 ‹_›
    · exact k.raise _ _ h1
    · exact h1
    · exact h1
  case anchorSilence e =>
    simp only [exec, execAnchorSilence, Host.Outcome.next.injEq] at he
    subst he
    have h1 := k.elapse e _ h
    unfold State.silenceIf; split
    · exact k.dropAnchor _ _ h1
    · exact h1
  case slewSpent e =>
    simp only [exec, execSlewSpent, Host.Outcome.next.injEq] at he
    subst he
    have h1 := k.elapse e _ h
    unfold State.slewIf; split
    · exact k.slewNone _ h1
    · exact h1
  case supervisorWindowEnd e =>
    simp only [exec, execSupervisorWindowEnd, Host.Outcome.next.injEq] at he
    subst he
    have h1 := k.elapse e _ h
    split
    · exact k.standbyRuleHere _ (k.actOnRecovery _ (k.actOnLoss _ (k.failover _ (k.raiseAll _ _ (k.windowEnd _ h1)))))
    · exact h1
  case synthesizerLocked e =>
    simp only [exec, execSynthesizerLocked, Host.Outcome.next.injEq] at he
    subst he
    have h1 := k.elapse e _ h
    split
    · rename_i hl
      simp only [State.lockReached, Bool.and_eq_true] at hl
      have h2 := k.completeLock _ h1 hl.1
      unfold State.lock; simp only []; split
      · exact k.enterListen _ _ h2
      · exact h2
    · exact h1
  case noLock e =>
    simp only [exec, execNoLock, Host.Outcome.next.injEq] at he
    subst he
    have h1 := k.elapse e _ h
    split
    · exact k.enterStandby _ _ (k.raise _ _ h1)
    · exact h1
  case lockTimeout e =>
    simp only [exec, execLockTimeout, Host.Outcome.next.injEq] at he
    subst he
    have h1 := k.elapse e _ h
    split
    · rename_i x hx
      have hh : (s.elapse e).source.lockSource = some x ∧ (s.elapse e).source.locking = true := by
        simp only [State.timedOut] at hx
        split at hx
        · split at hx
          · rename_i hb; simp only [Bool.and_eq_true] at hb; exact ⟨hx, hb.1⟩
          · simp at hx
        · simp at hx
      have h2 := k.stopSynth _ (k.markFailed x _ h1 hh.1 hh.2)
      have h3 : P ((s.elapse e).markFailed x).stopSynth.reportTimeout := by
        unfold State.reportTimeout; split
        · exact k.loseClock _ h2 ‹_›
        · exact k.enterStalled _ h2
      exact k.standbyRuleHere _ (k.actOnRecovery _ (k.failover _ h3))
    · exact h1
  case generatorBoundary e i =>
    simp only [exec, execGeneratorBoundary, Host.Outcome.next.injEq] at he
    subst he
    have h1 := k.elapse e _ h
    unfold State.boundaryIf; split
    · exact k.takeBoundary _ _ h1
    · exact h1
  case pinLowAgain e i =>
    simp only [exec, execPinLowAgain, Host.Outcome.next.injEq] at he
    subst he
    exact k.gens _ _ (k.elapse e _ h)
  case timecodeWordSent e =>
    simp only [exec, execTimecodeWordSent, Host.Outcome.next.injEq] at he
    subst he
    exact k.timecode _ _ (k.elapse e _ h)
  all_goals
    simp only [exec, execPeerAdmitted, execPeerExcluded, execPeerDemoted, execPeerLost, execDelayEstimateExpired,
      execFoundingTimeout, execJoiningSilenceTimeout, execListenTimerExpiry, execQuorum, execDisagree, execSettled,
      Host.Outcome.next.injEq] at he
    subst he
    exact k.roundEndTo _ _ (k.elapse _ _ h)

end Kept
end Sys2Proof.Machine
end

