-- ==== Sys2Proof/Laws/Line.lean ====
section
/-! SUPPORT. What a timing mark took, which way a frame goes by it, and how the clock runs in the elapsed time. -/

namespace Sys2Proof.Machine

/-! ### Timing marks -/

/-- A mark says how long ago it came. -/
@[simp] theorem State.markAt_since (since : Nat) (s : State) : (s.markAt since).since = since := by
  unfold State.markAt
  split_ifs with h
  · simp [h]
  · dsimp only; split <;> rfl

/-- A mark at this instant took what stands. -/
@[simp] theorem State.markAt_zero (s : State) : s.markAt 0 = ⟨s.link.mode, s.source.coasting, s.reading, 0⟩ := rfl

/-- Where nothing is remembered, a mark further back came while reception was OFF (R4). -/
theorem State.markAt_forgotten {since : Nat} {s : State} (h : since ≠ 0) (none : s.link.trail = []) :
    (s.markAt since).mode = .off := by
  unfold State.markAt
  rw [if_neg h, none]; rfl

/-! ### Frames -/

/-- A frame whose mark came in WINDOWED mode goes to the read-back in the own window, else to its window (R9, R18). -/
theorem State.frameCompletes_windowed {bytes : List Byte} {m : Mark} {s : State} {a : Nat} (coasting : m.coasting = false)
    (on : s.link.mode ≠ .off) (mode : m.mode = .windowed) (agreed : m.agreed = some a) :
    s.frameCompletes bytes m = if slotOf a = s.config.slot then s.readBackFrame (roundOf a) (parseBeacon bytes)
      else s.windowedFrame (slotOf a) bytes m := by
  unfold State.frameCompletes
  rw [if_neg (by simp_all)]
  simp [mode, agreed]

/-- A frame whose mark came in OPEN mode is received openly (R12). -/
theorem State.frameCompletes_open {bytes : List Byte} {m : Mark} {s : State} (coasting : m.coasting = false)
    (on : s.link.mode ≠ .off) (mode : m.mode = .openMode) : s.frameCompletes bytes m = s.openFrame bytes m := by
  unfold State.frameCompletes
  rw [if_neg (by simp_all)]
  simp [mode]

/-- The tag is held elsewhere exactly where another entry has it (R9, R12). -/
theorem PeerTable.heldElsewhere_iff {t : PeerTable} {slot : Fin 32} {tag : Nat} :
    t.heldElsewhere slot tag = true ↔ ∃ i : Fin 32, i ≠ slot ∧ (t.entries[i]).tag = some tag := by
  simp [PeerTable.heldElsewhere, List.mem_finRange]

/-! ### The running clock -/

/-- The part of the pending slew that falls in the elapsed time, in units of the clock (R93). -/
def State.partOf (e : Elapsed) (c : Nat) (s : State) : Int :=
  (s.discipline.slew.map fun w => w.share c (s.baseAdvance e)).getD 0

/-- A valid clock runs by its base and the part of the slew (R86, R93). -/
theorem State.elapse_clock {e : Elapsed} {s : State} {c : Nat} (h : s.discipline.clock = some c) :
    (s.elapse e).discipline.clock = some (clampUnits (c + s.baseAdvance e + s.partOf e c)) := by
  simp [State.elapse, State.tickClock, State.tickSources, State.tickRc, h, State.baseAdvance, State.setSource, State.partOf]

/-- The pending slew counts the part as applied (R93). -/
theorem State.elapse_slew {e : Elapsed} {s : State} {c : Nat} (h : s.discipline.clock = some c) :
    (s.elapse e).discipline.slew = s.discipline.slew.map (·.apply (s.partOf e c)) := by
  simp [State.elapse, State.tickClock, State.tickSources, State.tickRc, h, State.baseAdvance, State.setSource, State.partOf]

end Sys2Proof.Machine
end

