-- ==== Sys2Proof/Laws/Notices.lean ====
section
/-! SUPPORT. Notices: what one occurrence does to the pending records, and that every elementary change keeps them in order
(R166, R170). -/

namespace Sys2Proof.Machine
def NoticesOk (s : State) : Prop := s.notices.Ok
theorem NoticeUnit.Ok.occur {u : NoticeUnit} (h : u.Ok) (n t) : (u.occur n t).Ok := by
  unfold NoticeUnit.occur
  split
  · rename_i he
    split
    · intro k r hr
      simp only [put_get] at hr ⊢
      by_cases hk : n.kind = k
      · subst hk; simp at hr; subst hr; exact ⟨rfl, he, by simp⟩
      · simp [hk] at hr; exact h k r hr
    · rename_i r' hr'
      intro k r hr
      simp only [put_get] at hr ⊢
      by_cases hk : n.kind = k
      · subst hk; simp at hr; subst hr; exact ⟨rfl, he, by simp⟩
      · simp [hk] at hr; exact h k r hr
  · exact h
theorem NoticesOk.of {s t : State} (h : NoticesOk s) (e : t.notices = s.notices) : NoticesOk t := by rw [NoticesOk, e]; exact h
theorem NoticesOk.raise {s : State} (h : NoticesOk s) (n) : NoticesOk (s.raise n) := h.occur n s.reading
theorem NoticesOk.raiseAll {s : State} (h : NoticesOk s) (ns) : NoticesOk (s.raiseAll ns) := by
  induction ns generalizing s with
  | nil => exact h
  | cons n ns ih => exact ih (h.raise n)
theorem NoticesOk.move {s : State} (h : NoticesOk s) (st c) : NoticesOk (s.move st c) := NoticesOk.of (h.raise (.stateChanged st c)) (by simp [State.move])
theorem NoticesOk.dropAnchor {s : State} (h : NoticesOk s) (c) : NoticesOk (s.dropAnchor c) := by
  unfold State.dropAnchor; simp only []; split
  · exact NoticesOk.raise (h.of (by simp)) _
  · exact h
theorem NoticesOk.invalidateClock {s : State} (h : NoticesOk s) : NoticesOk (s.invalidateClock) := by
  unfold State.invalidateClock; exact NoticesOk.dropAnchor (by exact h) _
theorem NoticesOk.loseClock {s : State} (h : NoticesOk s) : NoticesOk (s.loseClock) := by
  unfold State.loseClock; split
  · exact NoticesOk.of h.invalidateClock (by simp)
  · exact h
theorem NoticesOk.applyDue {s : State} (h : NoticesOk s) : NoticesOk s.applyDue := by
  unfold State.applyDue; repeat' split
  · exact NoticesOk.raise (s := s.setAnchor _) h _
  · exact h
  · exact h
theorem NoticesOk.stepClock {s : State} (h : NoticesOk s) (a) : NoticesOk (s.stepClock a) := by
  unfold State.stepClock; split
  · exact h
  · split
    · exact h
    · refine NoticesOk.of (NoticesOk.applyDue ?_) (by simp; rfl)
      exact h
theorem NoticesOk.stepNoticed {s : State} (h : NoticesOk s) (o a) : NoticesOk (s.stepNoticed o a) := by
  unfold State.stepNoticed; split
  · exact h.stepClock 0
  · exact (h.stepClock a).raise _
theorem NoticesOk.enterStalled {s : State} (h : NoticesOk s) : NoticesOk s.enterStalled := by
  unfold State.enterStalled
  have : NoticesOk ((s.move .stalled .source).stallLink.invalidateClock) := NoticesOk.invalidateClock ((h.move .stalled .source).of (by simp))
  exact this.of (by simp)
theorem NoticesOk.integrate {s : State} (h : NoticesOk s) (e) : NoticesOk (s.integrate e) := by
  unfold State.integrate; exact NoticesOk.raiseAll (by exact h) _
theorem NoticesOk.enterStandby {s : State} (h : NoticesOk s) (c) : NoticesOk (s.enterStandby c) := by
  unfold State.enterStandby State.abandonLock; simp only []
  have h1 : NoticesOk (s.move .standby c).withdrawGens := (h.move .standby c).of (by simp)
  (repeat' split) <;> refine NoticesOk.of ?_ (State.standbyRule_notices _)
  · exact NoticesOk.loseClock (h1.of (by simp))
  · exact h1.of (by simp)
  · exact h1
theorem NoticesOk.failover {s : State} (h : NoticesOk s) : NoticesOk s.failover := h.of (by simp)
theorem NoticesOk.foundClock {s : State} (h : NoticesOk s) : NoticesOk s.foundClock := by
  unfold State.foundClock; split
  · exact h.stepNoticed _ _
  · exact h.of (by simp)
  · exact h

theorem notices_kept : Kept NoticesOk where
  elapse e s h := h.of (by simp)
  raise n _ h := h.raise n
  port _ _ h _ := h
  stationReset b s h := by
    have e : (s.stationReset b).notices = restartedNotices s.config.noticeEnables s.config.noticePriorities false := by
      unfold State.stationReset; simp
    rw [NoticesOk, e]
    apply NoticeUnit.Ok.occur
    intro k r hr
    simp at hr
  powerOn b s h := by
    intro k r hr
    have : (s.powerOn b).notices = NoticeUnit.reset := rfl
    rw [this] at hr ⊢
    simp only [NoticeUnit.reset] at hr ⊢
    by_cases hk : k = 0
    · subst hk; simp at hr; subst hr; simp [Notice.kind]
    · have : (0 : Nat) ≠ k.val := fun e => hk (Fin.ext e.symm)
      simp [Vector.getElem_set, this] at hr
  takeConfig r s h hs _ _ := by
    have h1 : NoticesOk (((s.storeConfig r).configureAnchor r)) := by
      unfold State.configureAnchor; exact NoticesOk.dropAnchor (by exact h) _
    have h2 : NoticesOk ((((s.storeConfig r).configureAnchor r)).configureSource r) := by
      unfold State.configureSource
      refine NoticesOk.of (s := State.actOnLoss _) ?_ (State.standbyRule_notices _)
      unfold State.actOnLoss
      have h3 : NoticesOk ((((s.storeConfig r).configureAnchor r).setSource (((s.storeConfig r).configureAnchor r).source.takeEnables r)).failover.follow) := h1.of (by simp)
      repeat' split
      · exact NoticesOk.loseClock (h3.of (by simp))
      all_goals first | exact h3 | exact h3.enterStalled
    intro k q hq
    simp only [State.takeConfig, NoticeUnit.configure, tabulate_get] at hq ⊢
    split at hq
    · rename_i hen
      have := h2 k q hq
      exact ⟨this.1, hen, this.2.2⟩
    · simp at hq
  loadHoldover s h := by
    unfold State.loadHoldover; simp only []; split
    · exact NoticesOk.raiseAll (by exact h) _
    · exact h
  takeSeed _ _ _ h := h
  takeLabel _ _ h := h
  takeChange _ _ s h _ := by unfold State.takeChange; exact NoticesOk.raise (s := s.setAnchor _) h _
  select _ s h _ := h.of (by simp)
  setRestart s h := h
  enable m v s h := by
    intro k q hq
    simp only [State.setNotices, NoticeUnit.enable, tabulate_get] at hq ⊢
    split at hq
    · rename_i hen
      have := h k q hq
      exact ⟨this.1, hen, this.2.2⟩
    · simp at hq
  take s h := by
    unfold NoticeUnit.take; split
    · intro k q hq
      simp only [State.setNotices, put_get] at hq ⊢
      split at hq
      · simp at hq
      · exact h k q hq
    · exact h
  enterListen c s h := (h.move .listen c).of (by simp [State.enterListen])
  enterStandby _ s h := h.enterStandby _
  enterStarting c s h := by
    unfold State.enterStarting; simp only []
    have h1 := (h.move .starting c)
    split
    · exact NoticesOk.enterStalled (h1.of (by simp))
    · exact h1.of (by simp)
  enterStalled s h := h.enterStalled
  enterWithdrawing c _ h _ := (h.move .withdrawing c).of (by simp [State.enterWithdrawing])
  enterJoining c s h _ := (h.move .joining c).of (by simp [State.enterJoining])
  enterAgreed c s h _ := (h.move .agreed c).of (by simp [State.enterAgreed])
  enterIsolated c _ h _ := (h.move .isolated c).of (by simp [State.enterIsolated])
  integrateTo c l m b s h := by
    have h : NoticesOk (s.enterJoining c) := (h.move .joining c).of (by simp [State.enterJoining])
    unfold State.integrateClock; split
    · exact h.of (by simp)
    · exact h.stepClock _
    · exact h.stepClock _
  found s h _ := NoticesOk.foundClock ((h.move .founding .expired).of (by simp [State.enterFounding]))
  noteArrival _ _ h := h
  handToPeer _ _ _ s h _ _ := by unfold State.handToPeer; exact NoticesOk.raiseAll (by exact h) _
  readBack _ _ h := h
  judge _ _ _ h := h
  build _ _ _ h := h.of (by simp)
  beginFrame _ _ h := h.of (by simp)
  releaseFrame _ _ h := h.of (by simp)
  closeWindow _ h := h.of (by simp)
  station _ _ h _ _ _ := h
  signal _ _ h := h.of (by simp)
  closeTable s h := by unfold State.closeTable; exact NoticesOk.raiseAll (by exact h) _
  agreement _ _ h := h
  examineLabels _ s h _ := by
    unfold State.examineLabels; simp only []
    repeat' split
    all_goals first
      | exact h
      | (unfold State.labelConflict; exact NoticesOk.raise (s := s.setAnchor _) h _)
      | (unfold State.adopt; exact NoticesOk.applyDue (NoticesOk.raise (s := s.setAnchor _) h _))
  steerOnly x s h := h.of (by simp)
  applyRules e m x s h := by
    unfold State.applyRules; split
    · exact NoticesOk.stepNoticed (by exact h) _ _
    · exact h.of (by simp)
    · exact NoticesOk.stepNoticed (by exact h) _ _
    · exact NoticesOk.integrate (h.of (by simp)) _
    · exact h.of (by simp)
    · exact NoticesOk.integrate (h.of (by simp)) _
  exchange _ h := h
  takeMajorityOffset _ h := h.of (by simp)
  settleNone _ h := h
  applyDue _ h := h.applyDue
  capture x t s h _ := by
    unfold State.capture; simp only []
    repeat' split
    · exact NoticesOk.raise (s := s.setAnchor _) h _
    · exact NoticesOk.raise (s := s.setAnchor _) h _
    · exact h
  dropAnchor _ _ h := h.dropAnchor _
  slewNone _ h := h
  windowEnd _ h := h
  failover s h := h.failover
  loseClock s h _ := h.loseClock
  standbyRule _ h := h.of (by simp)
  stopSynth _ h := h
  completeLock _ h _ := h
  markFailed x s h _ _ := by
    unfold State.markFailed; simp only []; split
    · exact h
    · exact NoticesOk.raise (s := s.setSource _) h _
  gens _ _ h := h
  timecode _ _ h := h

/-- The pending records after an occurrence (R166). -/
theorem NoticeUnit.occur_record (u : NoticeUnit) (n : Notice) (t : Option Nat) (k : Fin 27) :
    (u.occur n t).records[k] =
      if u.enables[n.kind] = true ∧ k = n.kind then
        some ((u.records[n.kind]).elim ⟨0, t, n⟩ fun r => ⟨min 255 (r.repeats + 1), r.time, n⟩)
      else u.records[k] := by
  unfold NoticeUnit.occur
  split
  · rename_i he
    split <;> rename_i hr
    · show (put u.records n.kind _)[k] = _
      rw [put_get, hr]
      by_cases hk : n.kind = k
      · rw [if_pos hk, if_pos ⟨he, hk.symm⟩]; rfl
      · rw [if_neg hk, if_neg fun h => hk h.2.symm]
    · show (put u.records n.kind _)[k] = _
      rw [put_get, hr]
      by_cases hk : n.kind = k
      · rw [if_pos hk, if_pos ⟨he, hk.symm⟩]; rfl
      · rw [if_neg hk, if_neg fun h => hk h.2.symm]
  · rename_i he
    exact (if_neg fun h => he h.1).symm

/-- The pending records after a notice (R166). -/
theorem raise_record (n : Notice) (s : State) (k : Fin 27) :
    (s.raise n).notices.records[k] =
      if s.notices.enables[n.kind] = true ∧ k = n.kind then
        some ((s.notices.records[n.kind]).elim ⟨0, s.reading, n⟩ fun r => ⟨min 255 (r.repeats + 1), r.time, n⟩)
      else s.notices.records[k] := NoticeUnit.occur_record ..

/-- A notice leaves enables and priorities (R166). -/
@[simp] theorem raise_enables (n : Notice) (s : State) : (s.raise n).notices.enables = s.notices.enables := by
  simp only [State.raise, State.setNotices_notices, NoticeUnit.occur]; repeat' split
  all_goals rfl
@[simp] theorem raise_priorities (n : Notice) (s : State) : (s.raise n).notices.priorities = s.notices.priorities := by
  simp only [State.raise, State.setNotices_notices, NoticeUnit.occur]; repeat' split
  all_goals rfl

/-- A notice is reported by raising it. -/
theorem Reports.raise (s : State) (n : Notice) : Reports s (s.raise n) n := by
  intro he
  rw [raise_record, if_pos ⟨he, rfl⟩]
  cases s.notices.records[n.kind] <;> rfl

/-- What happens before a report does not matter where it leaves the enables. -/
theorem Reports.before {s u t : State} {n : Notice} (h : Reports u t n) (e : u.notices.enables = s.notices.enables) :
    Reports s t n := fun he => h (by rw [e]; exact he)

/-- What follows a report does not matter where it leaves the record of the kind. -/
theorem Reports.after {s u t : State} {n : Notice} (h : Reports s u n)
    (e : t.notices.records[n.kind] = u.notices.records[n.kind]) : Reports s t n := fun he => by rw [e]; exact h he

/-- A notice of another kind leaves the record. -/
theorem raise_record_other (n : Notice) (s : State) (k : Fin 27) (h : k ≠ n.kind) :
    (s.raise n).notices.records[k] = s.notices.records[k] := by
  rw [raise_record, if_neg fun e => h e.2]

end Sys2Proof.Machine
end

