-- ==== Sys2Proof/Laws/Tags.lean ====
section
/-! SUPPORT. Station tags in the Peer Table: each operation, and that no two entries come to hold one tag (R46). -/

namespace Sys2Proof.Machine
def TagsOk (s : State) : Prop := s.peers.TagsDistinct
theorem TagsOk.of {s t : State} (h : TagsOk s) (e : t.peers = s.peers) : TagsOk t := by unfold TagsOk; rw [e]; exact h
/-- No new tags. -/
theorem TagsOk.fewer {s t : State} (h : TagsOk s) (e : ∀ i : Fin 32, (t.peers.entries[i]).tag = (s.peers.entries[i]).tag ∨ (t.peers.entries[i]).tag = none) : TagsOk t := by
  intro i j n hi hj
  rcases e i with e1 | e1
  · rcases e j with e2 | e2
    · exact h i j n (e1 ▸ hi) (e2 ▸ hj)
    · rw [e2] at hj; cases hj
  · rw [e1] at hi; cases hi
theorem TagsOk.stepClock {s : State} (h : TagsOk s) (a : Int) : TagsOk (s.stepClock a) := by
  unfold State.stepClock
  split
  · exact h
  · split
    · exact h
    · refine h.fewer fun i => Or.inl ?_
      simp only [State.openOccasion_peers, State.applyDue_peers, State.stepGens_peers, PeerTable.onStep, tabulate_get]
      simp only [PeerEntry.onStep]; split <;> rfl
theorem TagsOk.stepNoticed {s : State} (h : TagsOk s) (o) (a : Int) : TagsOk (s.stepNoticed o a) := by
  unfold State.stepNoticed; split
  · exact h.stepClock 0
  · exact TagsOk.of (h.stepClock a) (by simp)
theorem PeerTable.rebuilt_tagsDistinct (slot tag) : (PeerTable.rebuilt slot tag).TagsDistinct := by
  intro i j n hi hj
  simp only [PeerTable.rebuilt, tabulate_get] at hi hj
  split at hi
  · split at hj
    · simp_all
    · cases hj
  · cases hi
theorem PeerTable.reset_tagsDistinct : PeerTable.reset.TagsDistinct := by
  intro i j n hi hj; simp [PeerTable.reset, PeerEntry.empty] at hi
theorem enterStalled_peers (s : State) : s.enterStalled.peers = s.peers.clear := by
  simp [State.enterStalled]
theorem stationReset_peers (b) (s : State) : (s.stationReset b).peers = s.peersAfterReset := by
  simp [State.stationReset]
theorem PeerEntry.handOff_tag (own w h l b) (p : PeerEntry) : (p.handOff own w h l b).tag = some b.tag := by
  unfold PeerEntry.handOff; simp only [PeerEntry.takeJudgement]
  unfold PeerEntry.takeSample PeerEntry.takeLag PeerEntry.takeFields PeerEntry.takeTag PeerEntry.restart
  (repeat' split) <;> rfl
theorem TagsOk.enterStalled {s : State} (h : TagsOk s) : TagsOk s.enterStalled := by
  refine h.fewer fun i => ?_
  rw [enterStalled_peers]; simp only [PeerTable.clear, tabulate_get]; split
  · left; rfl
  · right; rfl
theorem actOnLoss_or (s : State) : s.actOnLoss = s ∨ s.actOnLoss.peers = s.peers ∨ s.actOnLoss = s.enterStalled := by
  unfold State.actOnLoss; repeat' split
  · right; left; simp [State.standbyLoss]
  all_goals simp
theorem starting_or (c) (s : State) : (s.enterStarting c).peers = s.peers ∨ (s.enterStarting c).peers = s.peers.clear := by
  unfold State.enterStarting; simp only []; split
  · right; rw [enterStalled_peers]; simp
  · left; simp
theorem TagsOk.clear {s t : State} (h : TagsOk s) (e : t.peers = s.peers.clear) : TagsOk t := by
  refine h.fewer fun i => ?_
  rw [e]; simp only [PeerTable.clear, tabulate_get]; split
  · left; rfl
  · right; rfl
theorem takeConfig_peers (r) (s : State) : (s.takeConfig r).peers = PeerTable.rebuilt r.slot r.tag ∨ (s.takeConfig r).peers = (PeerTable.rebuilt r.slot r.tag).clear := by
  have e : (s.takeConfig r).peers = (((s.storeConfig r).configureAnchor r).configureSource r).peers := rfl
  rw [e]; unfold State.configureSource
  have hp : ((s.storeConfig r).configureAnchor r).peers = PeerTable.rebuilt r.slot r.tag := by simp [State.configureAnchor, State.storeConfig]
  have hq : ∀ u, (((s.storeConfig r).configureAnchor r).setSource u).failover.follow.peers = PeerTable.rebuilt r.slot r.tag := by
    intro u; simp [hp]
  rcases actOnLoss_or ((((s.storeConfig r).configureAnchor r).setSource (((s.storeConfig r).configureAnchor r).source.takeEnables r)).failover.follow) with h | h | h
  · left; simp only []; rw [h]; simp [hp]
  · left; simp only []; simp [h, hp]
  · right; simp only []; rw [h]; simp [enterStalled_peers, hp]

theorem tags_kept : Kept TagsOk where
  elapse e s h := h.of (by simp)
  raise _ _ h := h.of (by simp)
  port _ _ h e := h
  stationReset b s h := by
    unfold TagsOk; rw [stationReset_peers]; unfold State.peersAfterReset; split
    · exact PeerTable.rebuilt_tagsDistinct _ _
    · exact PeerTable.reset_tagsDistinct
  powerOn b s h := PeerTable.reset_tagsDistinct
  takeConfig r s h hs hp _ := by
    rcases takeConfig_peers r s with e | e
    · unfold TagsOk; rw [e]; exact PeerTable.rebuilt_tagsDistinct _ _
    · exact TagsOk.clear (s := { s with peers := PeerTable.rebuilt r.slot r.tag }) (PeerTable.rebuilt_tagsDistinct _ _) e
  loadHoldover s h := h.of (by simp)
  takeSeed _ _ _ h := h
  takeLabel _ _ h := h
  takeChange x y s h ht := h.of (by simp [State.takeChange])
  select x s h he := h.of (by simp)
  setRestart s h := h
  enable _ _ _ h := h
  take _ h := h
  enterListen _ s h := h.of (by simp)
  enterStandby _ s h := h.of (by simp)
  enterStarting c s h := by
    rcases starting_or c s with e | e
    · exact h.of e
    · exact h.clear e
  enterStalled s h := h.enterStalled
  enterWithdrawing c s h ht := h.of (by simp)
  enterJoining c s h ht := h.of (by simp)
  enterAgreed c s h ht := h.of (by simp)
  enterIsolated c s h ht := h.of (by simp)
  integrateTo c l m b s h := by
    have h : TagsOk (s.enterJoining c) := h.of (by simp)
    unfold State.integrateClock; split
    · exact h.of (by simp)
    · exact h.stepClock _
    · exact h.stepClock _
  found s h hm := by
    have h : TagsOk (s.enterFounding .expired) := h.of (by simp)
    unfold State.foundClock; split
    · exact h.stepNoticed _ _
    · exact h.of (by simp)
    · exact h
  noteArrival _ _ h := h
  handToPeer x l b s h hn _ := by
    intro i j n hi hj
    have e : ∀ i : Fin 32, ((s.handToPeer x l b).peers.entries[i]).tag = if x = i then some b.tag else (s.peers.entries[i]).tag := by
      intro i
      simp only [State.handToPeer, State.raiseAll_peers, State.setPeers_peers, put_get]
      split
      · exact PeerEntry.handOff_tag ..
      · rfl
    rw [e] at hi hj
    split at hi <;> split at hj
    · subst_vars; rfl
    · rename_i h1 h2; exact absurd (hj.trans hi.symm) (hn j (Ne.symm h2))
    · rename_i h1 h2; exact absurd (hi.trans hj.symm) (hn i (Ne.symm h1))
    · exact h i j n hi hj
  readBack _ _ h := h
  judge _ _ _ h := h
  build _ _ _ h := h
  beginFrame _ _ h := h
  releaseFrame _ _ h := h
  closeWindow _ h := h
  station t s h e1 e2 e3 := h
  signal i s h := h.of (by simp)
  closeTable s h := by
    refine h.fewer fun i => ?_
    simp only [State.closeTable, State.raiseAll_peers, State.setPeers_peers, tabulate_get]
    exact PeerEntry.close_tag _ _
  agreement _ _ h := h
  examineLabels c s h ht := h.of (by simp)
  steerOnly x s h := h.of (by simp)
  applyRules e m x s h := by
    unfold State.applyRules; split
    · exact TagsOk.stepNoticed (by exact h) _ _
    · exact h.of (by simp)
    · exact TagsOk.stepNoticed (by exact h) _ _
    · exact h.of (by simp)
    · exact h.of (by simp)
    · exact h.of (by simp)
  exchange s h := by
    refine h.fewer fun i => Or.inl ?_
    simp only [State.setPeers_peers, PeerTable.exchange, tabulate_get]
    (repeat' split) <;> rfl
  takeMajorityOffset s h := h.of (by simp)
  settleNone _ h := h
  applyDue _ h := h.of (by simp)
  capture x t s h hr := h.of (by simp)
  dropAnchor c s h := h.of (by simp)
  slewNone _ h := h
  windowEnd s h := h
  failover s h := h.of (by simp)
  loseClock s h hs := h.of (by simp)
  standbyRule _ h := h.of (by simp)
  stopSynth _ h := h
  completeLock s h hl := h
  markFailed x s h hl hlk := by
    unfold State.markFailed; simp only []; split
    · exact h
    · exact h.of (by simp)
  gens _ _ h := h
  timecode _ _ h := h
end Sys2Proof.Machine
end

