-- ==== Sys2Proof/Laws/Peers.lean ====
section
/-! SUPPORT. Peer Table entries: what the hand-off, the round close, a step and the exchange of groups keep (R45 to R62). -/

namespace Sys2Proof.Machine

theorem PeerEntry.empty_ok : PeerEntry.empty.Ok := ⟨by simp [PeerEntry.empty, EntryState.occupied], by simp [PeerEntry.empty], by simp [PeerEntry.empty], by simp [PeerEntry.empty], by simp [PeerEntry.empty], by simp [PeerEntry.empty]⟩
theorem PeerEntry.own_ok (t) : (PeerEntry.own t).Ok := ⟨by simp [PeerEntry.own], by simp [PeerEntry.own], by simp [PeerEntry.own], by simp [PeerEntry.own, PeerEntry.empty], by simp [PeerEntry.own, PeerEntry.empty], by simp [PeerEntry.own, PeerEntry.empty]⟩

structure TableOk (t : PeerTable) (r : Option ConfigRecord) : Prop where
  entries : ∀ i : Fin 32, (t.entries[i]).Ok
  own : ∀ i : Fin 32, (t.entries[i]).state = .self ↔ r.isSome = true ∧ i = (r.getD ConfigRecord.blank).slot
  ownEntry : ∀ i : Fin 32, (t.entries[i]).state = .self → t.entries[i] = PeerEntry.own (r.getD ConfigRecord.blank).tag

def PeersGood (s : State) : Prop := TableOk s.peers s.port.record
theorem PeersGood.iff (s : State) : s.PeersOk ↔ PeersGood s := ⟨fun h => ⟨h.1, h.2, h.3⟩, fun h => ⟨h.1, h.2, h.3⟩⟩
theorem PeersGood.of {s t : State} (h : PeersGood s) (e : t.peers = s.peers) (e2 : t.port.record = s.port.record) : PeersGood t := by unfold PeersGood; rw [e, e2]; exact h

/-- entrywise change -/
theorem TableOk.map {t u : PeerTable} {r} (h : TableOk t r)
    (k : ∀ i : Fin 32, ((u.entries[i]).Ok) ∧ ((u.entries[i]).state = .self ↔ (t.entries[i]).state = .self) ∧ ((t.entries[i]).state = .self → u.entries[i] = t.entries[i])) : TableOk u r := by
  refine ⟨fun i => (k i).1, fun i => (k i).2.1.trans (h.own i), fun i hi => ?_⟩
  have := (k i).2.1.1 hi
  rw [(k i).2.2 this]; exact h.ownEntry i this
theorem PeerEntry.onStep_ok {p : PeerEntry} (h : p.Ok) : p.onStep.Ok ∧ p.onStep.state = p.state := by
  unfold PeerEntry.onStep; simp only []; split
  · exact ⟨⟨h.tag, by simp, h.counted, h.delay, h.delayAge, h.streaks⟩, rfl⟩
  · exact ⟨⟨h.tag, h.heard, h.counted, h.delay, h.delayAge, h.streaks⟩, rfl⟩
theorem PeerEntry.onStep_own (t) : (PeerEntry.own t).onStep = PeerEntry.own t := by
  simp [PeerEntry.onStep, PeerEntry.own, PeerEntry.empty]
theorem PeersGood.stepClock {s : State} (h : PeersGood s) (a : Int) : PeersGood (s.stepClock a) := by
  unfold State.stepClock
  split
  · exact h
  · split
    · exact h
    · refine TableOk.map (r := _) (t := s.peers) (by simpa [PeersGood] using h) fun i => ?_
      simp only [State.openOccasion_peers, State.applyDue_peers, State.stepGens_peers, PeerTable.onStep, tabulate_get]
      have := PeerEntry.onStep_ok (h.entries i)
      refine ⟨this.1, by rw [this.2], fun hs => ?_⟩
      rw [h.ownEntry i hs, PeerEntry.onStep_own]
theorem PeersGood.stepNoticed {s : State} (h : PeersGood s) (o) (a : Int) : PeersGood (s.stepNoticed o a) := by
  unfold State.stepNoticed; split
  · exact h.stepClock 0
  · exact PeersGood.of (h.stepClock a) (by simp) (by simp)
theorem TableOk.rebuilt (r : ConfigRecord) : TableOk (PeerTable.rebuilt r.slot r.tag) (some r) := by
  refine ⟨fun i => ?_, fun i => ?_, fun i hi => ?_⟩
  · simp only [PeerTable.rebuilt, tabulate_get]; split
    · exact PeerEntry.own_ok _
    · exact PeerEntry.empty_ok
  · simp only [PeerTable.rebuilt, tabulate_get]; split <;> simp_all [PeerEntry.own, PeerEntry.empty]
  · simp only [PeerTable.rebuilt, tabulate_get] at hi ⊢; split at hi
    · simp_all
    · simp [PeerEntry.empty] at hi
theorem TableOk.reset : TableOk PeerTable.reset none := by
  refine ⟨fun i => ?_, fun i => ?_, fun i hi => ?_⟩
  · simp only [PeerTable.reset]; simpa using PeerEntry.empty_ok
  · simp [PeerTable.reset, PeerEntry.empty]
  · simp [PeerTable.reset, PeerEntry.empty] at hi
theorem TableOk.clear {t r} (h : TableOk t r) : TableOk t.clear r := by
  refine h.map fun i => ?_
  simp only [PeerTable.clear, tabulate_get]; split
  · exact ⟨h.entries i, by simp_all, fun _ => rfl⟩
  · refine ⟨PeerEntry.empty_ok, ?_, fun e => absurd e ‹_›⟩
    simp_all [PeerEntry.empty]
theorem smoothDelay_le {held x} (hd : ∀ d, held = some d → d ≤ 5000) (hx : x ≤ 5000) : smoothDelay held x ≤ 5000 := by
  unfold smoothDelay; split
  · exact hx
  · rename_i d
    have := hd d rfl
    have : Int.tdiv ((x:Int) - d) 8 ≤ max 0 ((x:Int) - d) := by
      rcases le_total 0 ((x:Int) - d) with h | h
      · rw [Int.tdiv_eq_ediv_of_nonneg h]; omega
      · have : Int.tdiv ((x:Int) - d) 8 ≤ 0 := (by
          have e : ((x:Int) - d) = -(((d:Int) - x)) := by omega
          rw [e, Int.neg_tdiv]
          have := Int.tdiv_nonneg (a := (d:Int) - x) (b := 8) (by omega) (by decide)
          omega)
        omega
    omega
theorem PeerEntry.handOff_ok (own w h l b) (p : PeerEntry) (k : p.Ok) (hs : p.state ≠ .self) :
    (p.handOff own w h l b).Ok ∧ (p.handOff own w h l b).state ≠ .self := by
  have htag := PeerEntry.handOff_tag own w h l b p
  have key : ∀ q : PeerEntry, (q.state = .counted → q.delay.isSome = true) → (∀ d, q.delay = some d → d ≤ 5000) → q.delayAge ≤ 256 →
      (q.goodStreak ≤ 255 ∧ q.wildStreak ≤ 255 ∧ q.absentStreak ≤ 255) → q.tag.isSome = true → q.Ok :=
    fun q a1 a2 a3 a4 a5 => ⟨fun _ => a5, fun _ => a5, a1, a2, a3, a4⟩
  have st : ∀ q : PeerEntry, (q.takeLag l).state = q.state ∧ (q.takeLag l).delay = q.delay ∧ (q.takeLag l).delayAge = q.delayAge ∧
      (q.takeLag l).goodStreak = q.goodStreak ∧ (q.takeLag l).wildStreak = q.wildStreak ∧ (q.takeLag l).absentStreak = q.absentStreak := by
    intro q; unfold PeerEntry.takeLag; split <;> simp
  have base : ((p.takeTag b.tag).state = .counted → (p.takeTag b.tag).delay.isSome = true) ∧ (∀ d, (p.takeTag b.tag).delay = some d → d ≤ 5000) ∧ (p.takeTag b.tag).delayAge ≤ 256 ∧
      ((p.takeTag b.tag).goodStreak ≤ 255 ∧ (p.takeTag b.tag).wildStreak ≤ 255 ∧ (p.takeTag b.tag).absentStreak ≤ 255) ∧ (p.takeTag b.tag).state ≠ .self := by
    unfold PeerEntry.takeTag PeerEntry.restart; split
    · simp
    · exact ⟨k.counted, k.delay, k.delayAge, k.streaks, hs⟩
  obtain ⟨q, hq⟩ : ∃ q, q = ((p.takeTag b.tag).takeFields b).takeLag l := ⟨_, rfl⟩
  have hq' := st ((p.takeTag b.tag).takeFields b)
  rw [← hq] at hq'
  have base2 : (q.state = .counted → q.delay.isSome = true) ∧ (∀ d, q.delay = some d → d ≤ 5000) ∧ q.delayAge ≤ 256 ∧
      (q.goodStreak ≤ 255 ∧ q.wildStreak ≤ 255 ∧ q.absentStreak ≤ 255) ∧ q.state ≠ .self := by
    obtain ⟨a1, a2, a3, a4, a5, a6⟩ := hq'
    rw [a1, a2, a3, a4, a5, a6]; exact base
  have base3 : ∀ o, ((q.takeSample o).state = .counted → (q.takeSample o).delay.isSome = true) ∧ (∀ d, (q.takeSample o).delay = some d → d ≤ 5000) ∧ (q.takeSample o).delayAge ≤ 256 ∧
      ((q.takeSample o).goodStreak ≤ 255 ∧ (q.takeSample o).wildStreak ≤ 255 ∧ (q.takeSample o).absentStreak ≤ 255) ∧ (q.takeSample o).state ≠ .self := by
    intro o; unfold PeerEntry.takeSample; repeat' split
    · exact base2
    · refine ⟨fun _ => rfl, fun d hd => ?_, by simp, base2.2.2.2.1, base2.2.2.2.2⟩
      cases hd; exact smoothDelay_le base2.2.1 (by omega)
    · exact base2
  unfold PeerEntry.handOff at htag ⊢; simp only [] at htag ⊢
  rw [← hq] at htag ⊢
  have b3 := base3 (delaySample own h l b)
  exact ⟨key _ b3.1 b3.2.1 b3.2.2.1 b3.2.2.2.1 (by rw [htag]; rfl), b3.2.2.2.2⟩

/-- Stage 1 of the close changes the streaks alone (R55). -/
theorem PeerEntry.countStreaks_eq (p : PeerEntry) : p.countStreaks = { p with
    goodStreak := p.countStreaks.goodStreak, wildStreak := p.countStreaks.wildStreak
    absentStreak := p.countStreaks.absentStreak } := by
  unfold PeerEntry.countStreaks; split
  · split <;> rfl
  · rfl

/-- Stage 2 of the close, field by field (R50, R56). -/
theorem PeerEntry.age_eq (p : PeerEntry) : p.age = { p with
    lagAge := p.lagAge.next, delay := if p.expires then none else p.delay
    delayAge := if p.expires then 0 else if p.delay.isSome then p.delayAge + 1 else p.delayAge
    state := if p.expires = true ∧ p.state = .counted then .heard else p.state } := by
  unfold PeerEntry.age; split
  · simp_all
  · split <;> simp_all

theorem PeerEntry.close_ok (a) (p : PeerEntry) (k : p.Ok) : (p.close a).Ok ∧ ((p.close a).state = .self ↔ p.state = .self) ∧ (p.state = .self → p.close a = p) := by
  unfold PeerEntry.close; split
  · exact ⟨k, by simp_all, fun _ => rfl⟩
  · rename_i hs
    -- after stages 1 and 2
    obtain ⟨q, hq⟩ : ∃ q, q = p.countStreaks.age := ⟨_, rfl⟩
    have hc : p.countStreaks.state = p.state ∧ p.countStreaks.tag = p.tag ∧ p.countStreaks.delay = p.delay ∧ p.countStreaks.delayAge = p.delayAge ∧
        (p.countStreaks.goodStreak ≤ 255 ∧ p.countStreaks.wildStreak ≤ 255 ∧ p.countStreaks.absentStreak ≤ 255) := by
      have := k.streaks
      unfold PeerEntry.countStreaks; split
      · split <;> simp [saturate, this]
      · simp [this]
    have ha : q.tag = p.tag ∧ (q.state = .counted → q.delay.isSome = true) ∧ (∀ d, q.delay = some d → d ≤ 5000) ∧ q.delayAge ≤ 256 ∧
        (q.goodStreak ≤ 255 ∧ q.wildStreak ≤ 255 ∧ q.absentStreak ≤ 255) ∧ q.state ≠ .self ∧ (q.state.occupied = true ↔ p.state.occupied = true) := by
      obtain ⟨c1, c2, c3, c4, c5⟩ := hc
      rw [hq]; unfold PeerEntry.age; simp only []
      split
      · refine ⟨c2, ?_, by simp, by simp, c5, ?_, ?_⟩
        · intro e; simp only [] at e; split at e
          · cases e
          · rename_i hne; exact absurd e hne
        · simp only []; rw [c1]; split <;> simp_all
        · simp only []; rw [c1]; split <;> simp_all [EntryState.occupied]
      · rename_i he
        split
        · rename_i hd
          refine ⟨c2, by rw [c1, c3]; exact k.counted, by simpa [c3] using k.delay, ?_, c5, by simpa [c1] using hs, by simp [c1]⟩
          simp only [PeerEntry.expires, hd] at he; simp at he
          simpa using he
        · exact ⟨c2, by simp only []; rw [c1, c3]; exact k.counted, by simpa [c3] using k.delay, by simp only []; rw [c4]; exact k.delayAge, c5, by simpa [c1] using hs, by simp [c1]⟩
    obtain ⟨a1, a2, a3, a4, a5, a6, a7⟩ := ha
    have fin : ∀ r : PeerEntry, (r.state.occupied = true → r.tag.isSome = true) → (r.state = .counted → r.delay.isSome = true) → (∀ d, r.delay = some d → d ≤ 5000) →
        r.delayAge ≤ 256 → (r.goodStreak ≤ 255 ∧ r.wildStreak ≤ 255 ∧ r.absentStreak ≤ 255) → r.state ≠ .self →
        (r.openRound p.closed p.deviation).Ok ∧ ((r.openRound p.closed p.deviation).state = .self ↔ p.state = .self) := by
      intro r r1 r2 r3 r4 r5 r6
      exact ⟨⟨r1, by simp [PeerEntry.openRound], r2, r3, r4, r5⟩, by simp [PeerEntry.openRound, r6, hs]⟩
    have qt : q.state.occupied = true → q.tag.isSome = true := fun h => by rw [a1]; exact k.tag (a7.1 h)
    suffices h : (((p.closing a).applyTo q).openRound p.closed p.deviation).Ok ∧ ((((p.closing a).applyTo q).openRound p.closed p.deviation).state = .self ↔ p.state = .self) by
      rw [← hq]; exact ⟨h.1, h.2, fun e => absurd e hs⟩
    have em : ∀ r, (q.emptied.openRound p.closed p.deviation).Ok ∧ ((q.emptied.openRound p.closed p.deviation).state = .self ↔ p.state = .self) ∨ r := by
      intro r; left
      apply fin <;> simp [PeerEntry.emptied, PeerEntry.empty, EntryState.occupied]
    have hcl : p.closing a = closeChange a p.closed (p.expires && decide (p.state = .counted)) q := by rw [hq]; rfl
    cases hch : p.closing a
    · exact fin q qt a2 a3 a4 a5 a6
    · -- becomeHeard: from vacant with a good beacon
      refine fin _ ?_ (by simp [CloseChange.applyTo]) a3 a4 (by simp [CloseChange.applyTo]) (by simp [CloseChange.applyTo])
      intro _
      show q.tag.isSome = true
      rw [a1]
      rw [hch] at hcl
      unfold closeChange at hcl
      split at hcl
      · cases hcl
      · rename_i hv
        split at hcl
        · rename_i hg
          apply k.heard
          unfold PeerEntry.closed at hg
          intro e; rw [e] at hg; split at hg <;> cases hg
        · split at hcl <;> cases hcl
      all_goals exfalso; revert hcl; (repeat' split) <;> simp
    · exact (em False).resolve_right id
    · exact (em False).resolve_right id
    · exact (em False).resolve_right id
    · -- demoted
      have : q.state = .counted := by
        rw [hch] at hcl; unfold closeChange at hcl
        split at hcl <;> first | assumption | (exfalso; revert hcl; (repeat' split) <;> simp)
      exact fin _ (fun _ => qt (by rw [this]; rfl)) (by simp [CloseChange.applyTo]) a3 a4 ⟨by simp [CloseChange.applyTo], by simp [CloseChange.applyTo], a5.2.2⟩ (by simp [CloseChange.applyTo])
    · have : q.state = .counted := by
        rw [hch] at hcl; unfold closeChange at hcl
        split at hcl <;> first | assumption | (exfalso; revert hcl; (repeat' split) <;> simp)
      exact fin _ (fun _ => qt (by rw [this]; rfl)) (by simp [CloseChange.applyTo]) a3 a4 a5 (by simp [CloseChange.applyTo])
    · have : q.state = .excluded ∧ q.delay.isSome = true := by
        rw [hch] at hcl; unfold closeChange at hcl
        split at hcl
        all_goals first
          | (exfalso; revert hcl; (repeat' split) <;> simp; done)
          | (refine ⟨by assumption, ?_⟩; revert hcl; (repeat' split) <;> simp_all)
      exact fin _ (fun _ => qt (by rw [this.1]; rfl)) (fun _ => this.2) a3 a4 a5 (by simp [CloseChange.applyTo])
    · have : q.state = .excluded := by
        rw [hch] at hcl; unfold closeChange at hcl
        split at hcl <;> first | assumption | (exfalso; revert hcl; (repeat' split) <;> simp)
      exact fin _ (fun _ => qt (by rw [this]; rfl)) (by simp [CloseChange.applyTo]) a3 a4 a5 (by simp [CloseChange.applyTo])
    · have : q.state = .heard ∧ q.delay.isSome = true := by
        rw [hch] at hcl; unfold closeChange at hcl
        split at hcl
        all_goals first
          | (exfalso; revert hcl; (repeat' split) <;> simp; done)
          | (refine ⟨by assumption, ?_⟩; revert hcl; (repeat' split) <;> simp_all)
      exact fin _ (fun _ => qt (by rw [this.1]; rfl)) (fun _ => this.2) a3 a4 a5 (by simp [CloseChange.applyTo])

theorem po_kept : Kept PeersGood where
  elapse e s h := h.of (by simp) (by simp)
  raise _ _ h := h.of (by simp) (by simp)
  port _ _ h e := h.of rfl e
  stationReset b s h := by
    have : (s.stationReset b).port.record = s.port.record := by simp [State.stationReset, Port.afterReset]
    unfold PeersGood; rw [stationReset_peers, this]; unfold State.peersAfterReset State.configured State.config
    cases hr : s.port.record with
    | none => exact TableOk.reset
    | some r => exact TableOk.rebuilt r
  powerOn b s h := TableOk.reset
  takeConfig r s h hs hp _ := by
    have : (s.takeConfig r).port.record = some r := by
      have : (s.takeConfig r).port = (((s.storeConfig r).configureAnchor r).configureSource r).port := rfl
      rw [this]; unfold State.configureSource; simp [State.configureAnchor, State.storeConfig]
    unfold PeersGood; rw [this]
    rcases takeConfig_peers r s with e | e
    · rw [e]; exact .rebuilt r
    · rw [e]; exact (TableOk.rebuilt r).clear
  loadHoldover s h := h.of (by simp) (by simp)
  takeSeed _ _ _ h := h
  takeLabel _ _ h := h
  takeChange x y s h ht := h.of (by simp [State.takeChange]) (by simp [State.takeChange])
  select x s h he := h.of (by simp) (by simp)
  setRestart s h := h
  enable _ _ _ h := h
  take _ h := h
  enterListen _ s h := h.of (by simp) (by simp)
  enterStandby _ s h := h.of (by simp) (by simp)
  enterStarting c s h := by
    rcases starting_or c s with e | e
    · exact h.of e (by simp)
    · unfold PeersGood; rw [e]; simpa using TableOk.clear h
  enterStalled s h := by unfold PeersGood; rw [enterStalled_peers]; simpa using TableOk.clear h
  enterWithdrawing c s h ht := h.of (by simp) (by simp)
  enterJoining c s h ht := h.of (by simp) (by simp)
  enterAgreed c s h ht := h.of (by simp) (by simp)
  enterIsolated c s h ht := h.of (by simp) (by simp)
  integrateTo c l m b s h := by
    have h : PeersGood (s.enterJoining c) := h.of (by simp) (by simp)
    unfold State.integrateClock; split
    · exact h.of (by simp) (by simp)
    · exact h.stepClock _
    · exact h.stepClock _
  found s h hm := by
    have h : PeersGood (s.enterFounding .expired) := h.of (by simp) (by simp)
    unfold State.foundClock; split
    · exact h.stepNoticed _ _
    · exact h.of (by simp) (by simp)
    · exact h
  noteArrival _ _ h := h
  handToPeer x l b s h hn hx := by
    have hns : (s.peers.entries[x]).state ≠ .self := fun e => hx ((h.own x).1 e).2
    refine TableOk.map (t := s.peers) (by simpa [PeersGood] using h) fun i => ?_
    simp only [State.handToPeer, State.raiseAll_peers, State.setPeers_peers, put_get]
    split
    · rename_i e; subst e
      have := PeerEntry.handOff_ok s.config.slot s.config.window s.peers.hold l b _ (h.entries x) hns
      exact ⟨this.1, ⟨fun e => absurd e this.2, fun e => absurd e hns⟩, fun e => absurd e hns⟩
    · exact ⟨h.entries i, Iff.rfl, fun _ => rfl⟩
  readBack _ _ h := h
  judge _ _ _ h := h
  build _ _ _ h := h
  beginFrame _ _ h := h
  releaseFrame _ _ h := h
  closeWindow _ h := h
  station t s h e1 e2 e3 := h
  signal i s h := h.of (by simp) (by simp)
  closeTable s h := by
    refine TableOk.map (t := s.peers) (by simpa [PeersGood] using h) fun i => ?_
    simp only [State.closeTable, State.raiseAll_peers, State.setPeers_peers, tabulate_get]
    exact PeerEntry.close_ok _ _ (h.entries i)
  agreement _ _ h := h
  examineLabels c s h ht := h.of (by simp) (by simp)
  steerOnly x s h := h.of (by simp) (by simp)
  applyRules e m x s h := by
    unfold State.applyRules; split
    · exact PeersGood.stepNoticed (by exact h) _ _
    · exact h.of (by simp) (by simp)
    · exact PeersGood.stepNoticed (by exact h) _ _
    · exact h.of (by simp) (by simp)
    · exact h.of (by simp) (by simp)
    · exact h.of (by simp) (by simp)
  exchange s h := by
    refine TableOk.map (t := s.peers) (by simpa [PeersGood] using h) fun i => ?_
    have hi := h.entries i
    simp only [State.setPeers_peers, PeerTable.exchange, tabulate_get]
    repeat' split
    · rename_i hc
      simp only [Bool.and_eq_true, beq_iff_eq, List.contains_eq_mem, decide_eq_true_eq] at hc
      have hd : (s.peers.entries[i]).delay.isSome = true := by
        have := hc.1
        simp [State.otherGroup, PeerEntry.strays] at this
        exact this.1.1.1.2
      refine ⟨⟨fun _ => hi.tag (by rw [hc.2]; rfl), hi.heard, fun _ => hd, hi.delay, hi.delayAge, by simp [PeerEntry.moveTo]⟩, ⟨fun e => by simp [PeerEntry.moveTo] at e, fun e => by rw [hc.2] at e; cases e⟩, fun e => by rw [hc.2] at e; cases e⟩
    · rename_i hc
      simp only [Bool.and_eq_true, beq_iff_eq] at hc
      refine ⟨⟨fun _ => hi.tag (by rw [hc.2]; rfl), hi.heard, by simp [PeerEntry.moveTo], hi.delay, hi.delayAge, by simp [PeerEntry.moveTo]⟩, ⟨fun e => by simp [PeerEntry.moveTo] at e, fun e => by rw [hc.2] at e; cases e⟩, fun e => by rw [hc.2] at e; cases e⟩
    · exact ⟨hi, Iff.rfl, fun _ => rfl⟩
  takeMajorityOffset s h := h.of (by simp) (by simp)
  settleNone _ h := h
  applyDue _ h := h.of (by simp) (by simp)
  capture x t s h hr := h.of (by simp) (by simp)
  dropAnchor c s h := h.of (by simp) (by simp)
  slewNone _ h := h
  windowEnd s h := h
  failover s h := h.of (by simp) (by simp)
  loseClock s h hs := h.of (by simp) (by simp)
  standbyRule _ h := h.of (by simp) (by simp)
  stopSynth _ h := h
  completeLock s h hl := h
  markFailed x s h hl hlk := by
    unfold State.markFailed; simp only []; split
    · exact h
    · exact h.of (by simp) (by simp)
  gens _ _ h := h
  timecode _ _ h := h
end Sys2Proof.Machine
end

