-- ==== Sys2Proof/Laws/Rates.lean ====
section
/-! SUPPORT. The rate adjustment: which operations leave it, and that integration keeps it within its limit (R95, R96, R99). -/

namespace Sys2Proof.Machine

theorem Discipline.RateOk.of_eq {d e : Discipline} (h : d.RateOk) (h1 : e.rate = d.rate) (h2 : e.holdoverValue = d.holdoverValue)
    (h3 : e.band = d.band) : e.RateOk := by
  simpa [Discipline.RateOk, h1, h2, h3] using h

theorem integrated_bound (r e : Int) : (integrated r e).natAbs ≤ 100000 := by
  simp only [integrated, bounded]; omega

theorem State.integrate_rateOk (e : Int) (s : State) : (s.integrate e).discipline.RateOk := by
  simp [State.integrate, Discipline.RateOk, integrated_bound]

/-- the op leaves rate, holdover value and band -/
def SameRate (s t : State) : Prop := t.discipline.rate = s.discipline.rate ∧ t.discipline.holdoverValue = s.discipline.holdoverValue ∧ t.discipline.band = s.discipline.band

theorem SameRate.ok {s t : State} (h : SameRate s t) (k : s.discipline.RateOk) : t.discipline.RateOk := by
  simpa [Discipline.RateOk, h.1, h.2.1, h.2.2] using k
theorem SameRate.trans {s t u : State} (h : SameRate s t) (k : SameRate t u) : SameRate s u := ⟨k.1.trans h.1, k.2.1.trans h.2.1, k.2.2.trans h.2.2⟩
theorem SameRate.of_discipline {s t : State} (h : t.discipline = s.discipline) : SameRate s t := by simp [SameRate, h]

theorem State.stepClock_same (a : Int) (s : State) : SameRate s (s.stepClock a) := by
  simp only [State.stepClock]; (repeat' split) <;> simp [SameRate]
theorem State.stepNoticed_same (o) (a : Int) (s : State) : SameRate s (s.stepNoticed o a) := by
  simp only [State.stepNoticed]; split
  · exact s.stepClock_same 0
  · simpa [SameRate] using s.stepClock_same a
theorem State.setClock_same (a) (s : State) : SameRate s (s.setClock a) := by
  simp [State.setClock, SameRate]
theorem State.invalidateClock_same (s : State) : SameRate s (s.invalidateClock) := by
  simp [State.invalidateClock, SameRate]
theorem State.loseClock_same (s : State) : SameRate s (s.loseClock) := by
  simp only [State.loseClock]; split <;> simp [SameRate, State.invalidateClock]
theorem State.elapse_same (e) (s : State) : SameRate s (s.elapse e) := by
  simp only [State.elapse, State.tickClock]; split <;> simp [SameRate]
theorem State.follow_same (s : State) : SameRate s (s.follow) := by
  simp only [State.follow]; (repeat' split) <;> simp [SameRate, State.coastOn]
theorem State.select_same (x) (s : State) : SameRate s (s.select x) := by
  have := State.follow_same (s.setSource { s.source with selected := x })
  simpa [State.select, SameRate] using this
theorem State.failover_same (s : State) : SameRate s (s.failover) := by
  simp only [State.failover]; split
  · exact s.select_same _
  · simp [SameRate]
theorem State.enterStandby_same (c) (s : State) : SameRate s (s.enterStandby c) := by
  simp only [State.enterStandby, State.abandonLock]; (repeat' split) <;> simp [SameRate, State.loseClock, State.invalidateClock] <;> (repeat' split) <;> simp
theorem State.enterStalled_same (s : State) : SameRate s (s.enterStalled) := by
  simp [State.enterStalled, SameRate, Discipline.stall, State.invalidateClock]

theorem State.enterStarting_same (c) (s : State) : SameRate s (s.enterStarting c) := by
  simp only [State.enterStarting]; split
  · refine SameRate.trans ?_ (State.enterStalled_same _); simp [SameRate]
  · simp [SameRate]
theorem State.actOnLoss_same (s : State) : SameRate s (s.actOnLoss) := by
  simp only [State.actOnLoss]
  (repeat' split) <;> first
    | exact s.enterStalled_same
    | (simp only [State.standbyLoss]; exact (SameRate.of_discipline (by simp)).trans (State.loseClock_same _))
    | exact SameRate.of_discipline rfl
theorem State.actOnRecovery_same (s : State) : SameRate s (s.actOnRecovery) := by
  simp only [State.actOnRecovery]; split
  · exact s.enterStarting_same _
  · exact SameRate.of_discipline rfl

theorem State.enterAgreed_rateOk (c) (s : State) (h : s.discipline.RateOk) : (s.enterAgreed c).discipline.RateOk := by
  simp only [State.enterAgreed]; simp [Discipline.RateOk]; exact ⟨h.1, h.2.2⟩
theorem State.applyRules_rateOk (e m st) (s : State) (h : s.discipline.RateOk) : (s.applyRules e m st).discipline.RateOk := by
  simp only [State.applyRules]
  split
  · refine (State.stepNoticed_same _ _ _).ok ?_; simpa [Discipline.RateOk, State.setRestart, State.clearMark] using h
  · simp only [State.steerOnly, State.chooseSlew]; (repeat' split) <;> simpa [Discipline.RateOk] using h
  · refine (State.stepNoticed_same _ _ _).ok ?_; simpa [Discipline.RateOk, State.setRestart, State.clearMark] using h
  · exact State.integrate_rateOk _ _
  · simp only [State.steerOnly, State.chooseSlew]; (repeat' split) <;> simpa [Discipline.RateOk] using h
  · exact State.integrate_rateOk _ _
theorem State.enterListen_same (c) (s : State) : SameRate s (s.enterListen c) := SameRate.of_discipline (by simp)
theorem State.foundClock_same (s : State) : SameRate s (s.foundClock) := by
  simp only [State.foundClock]; split
  · exact State.stepNoticed_same _ _ _
  · exact State.setClock_same _ _
  · exact SameRate.of_discipline rfl
theorem State.listenExpiry_same (s : State) : SameRate s (s.listenExpiry) := by
  simp only [State.listenExpiry]; split
  · exact (SameRate.of_discipline (by simp)).trans (State.foundClock_same _)
  · exact SameRate.of_discipline (by simp)

def RatesOk (s : State) : Prop := s.discipline.RateOk
theorem RatesOk.of {s t : State} (h : RatesOk s) (e : SameRate s t) : RatesOk t := e.ok h
theorem RatesOk.disc {s t : State} (h : RatesOk s) (e : t.discipline = s.discipline) : RatesOk t := by rw [RatesOk, e]; exact h

theorem rate_kept : Kept RatesOk where
  elapse e s h := h.of (s.elapse_same e)
  raise _ _ h := h.disc (by simp)
  port _ _ h _ := h
  stationReset b s h := by
    have : ∀ (s : State) , SameRate s (s.standbyRule) := fun s => .of_discipline (by simp)
    unfold State.stationReset
    refine RatesOk.of ?_ ((State.failover_same _).trans (this _))
    simp only [RatesOk, Discipline.afterReset, Discipline.RateOk, Discipline.reset]
    have h := h
    simp only [RatesOk, Discipline.RateOk] at h
    split <;> simp [h]
  powerOn b s h := by simp [RatesOk, State.powerOn, State.reset, Discipline.reset, Discipline.RateOk, bandOf]
  takeConfig r s h hs _ _ := by
    have key : ∀ t : State, SameRate t ((State.actOnLoss (t.failover.follow)).standbyRule) := fun t =>
      (State.failover_same t).trans ((State.follow_same _).trans ((State.actOnLoss_same _).trans (SameRate.of_discipline (by simp))))
    refine h.of ?_
    have e : (s.takeConfig r).discipline = (((s.storeConfig r).configureAnchor r).configureSource r).discipline := rfl
    refine SameRate.trans ?_ (SameRate.of_discipline e)
    exact SameRate.trans (by simp [SameRate, State.configureAnchor, State.storeConfig, Discipline.configure]) (key (State.setSource _ _))
  loadHoldover s h := by
    have h := h
    simp only [RatesOk, Discipline.RateOk] at h
    unfold State.loadHoldover; simp only []; split
    · simp [RatesOk, Discipline.RateOk, h]
    · exact h
  takeSeed _ _ _ h := h
  takeLabel _ _ h := h
  takeChange _ _ _ h _ := h.disc (by simp [State.takeChange])
  select _ s h _ := h.of (s.select_same _)
  setRestart s h := h.of (by simp [SameRate, State.setRestart])
  enable _ _ _ h := h
  take _ h := h
  enterListen _ s h := h.of (s.enterListen_same _)
  enterStandby _ s h := h.of (s.enterStandby_same _)
  enterStarting _ s h := h.of (s.enterStarting_same _)
  enterStalled s h := h.of (s.enterStalled_same)
  enterWithdrawing _ _ h _ := h.disc (by simp)
  enterJoining _ s h _ := h.of (by simp [State.enterJoining, SameRate])
  enterAgreed _ s h _ := s.enterAgreed_rateOk _ h
  enterIsolated _ _ h _ := h.disc (by simp)
  integrateTo c l m b s h := by
    have h : RatesOk (s.enterJoining c) := h.of (by simp [State.enterJoining, SameRate])
    unfold State.integrateClock; split
    · exact h.of (State.setClock_same _ _)
    · exact h.of (State.stepClock_same _ _)
    · exact h.of (State.stepClock_same _ _)
  found s h _ := h.of ((SameRate.of_discipline (by simp)).trans (State.foundClock_same _))
  noteArrival _ _ h := h
  handToPeer _ _ _ _ h _ _ := h.disc (by simp)
  readBack _ _ h := h
  judge _ _ _ h := h
  build _ _ _ h := h.disc (by simp)
  beginFrame _ _ h := h.disc (by simp)
  releaseFrame _ _ h := h.disc (by simp)
  closeWindow _ h := h.disc (by simp)
  station _ _ h _ _ _ := h
  signal _ _ h := h.disc (by simp)
  closeTable _ h := h.disc (by simp)
  agreement _ _ h := h
  examineLabels _ _ h _ := h.disc (by simp)
  steerOnly x s h := h.of (by unfold State.steerOnly State.chooseSlew; (repeat' split) <;> simp [SameRate])
  applyRules _ _ _ s h := s.applyRules_rateOk _ _ _ h
  exchange _ h := h
  takeMajorityOffset _ h := h.disc (by simp)
  settleNone _ h := h
  applyDue _ h := h.disc (by simp)
  capture _ _ _ h _ := h.disc (by simp)
  dropAnchor _ _ h := h.disc (by simp)
  slewNone _ h := h
  windowEnd _ h := h
  failover s h := h.of s.failover_same
  loseClock s h _ := h.of s.loseClock_same
  standbyRule _ h := h.disc (by simp)
  stopSynth _ h := h
  completeLock _ h _ := h
  markFailed x s h _ _ := h.disc (by unfold State.markFailed; simp only []; split <;> simp)
  gens _ _ h := h
  timecode _ _ h := h
end Sys2Proof.Machine
end

