-- ==== Sys2Proof/Laws/Sources.lean ====
section
/-! SUPPORT. The Source Unit: what selection, failover, locks and enables keep (R117 to R130). -/

namespace Sys2Proof.Machine

/-- The Source Unit before the synthesizer has followed the selection. -/
structure SourceUnit.Pre (u : SourceUnit) (r : ConfigRecord) : Prop where
  xo : u.xo.Ok
  ref : u.ref.Ok
  selected : (u.get u.selected).enabled = true
  coasting : u.coasting = true ↔ u.synth = .relocking
  off : u.lockSource = none ↔ u.synth = .off
  xoEnable : u.xo.enabled = r.xoEnable
  refEnable : u.ref.enabled = r.refEnable
  preferred : r.prefersEnabled = true

def SourceUnit.Good (u : SourceUnit) (r : ConfigRecord) : Prop := u.Pre r ∧ ∀ x, u.lockSource = some x → x = u.selected

theorem State.sourcesOk_iff (s : State) : s.SourcesOk ↔ s.source.Good s.config := by
  constructor
  · rintro ⟨⟨h1, h2, h3, h4, h5⟩, h6, h7, h8⟩
    refine ⟨⟨h1, h2, h3, h4, ?_, h6, h7, h8⟩, ?_⟩
    · rw [h5]; split <;> simp_all
    · intro x hx; rw [h5] at hx; split at hx <;> simp_all
  · rintro ⟨⟨h1, h2, h3, h4, h5, h6, h7, h8⟩, h9⟩
    refine ⟨⟨h1, h2, h3, h4, ?_⟩, h6, h7, h8⟩
    split
    · rename_i ho; exact h5.2 ho
    · rename_i ho
      cases hl : s.source.lockSource with
      | none => exact absurd (h5.1 hl) ho
      | some x => rw [h9 x hl]

def SourcesGood (s : State) : Prop := s.source.Good s.config

theorem SourcesGood.of {s t : State} (h : SourcesGood s) (e1 : t.source = s.source) (e2 : t.port.record = s.port.record) : SourcesGood t := by
  unfold SourcesGood State.config at *; rw [e1, e2]; exact h

theorem SourceUnit.follow_good (s : State) (h : s.source.Pre s.config) : SourcesGood s.follow := by
  have ec : ∀ t : State, t.port = s.port → t.config = s.config := fun t e => by simp [State.config, e]
  unfold State.follow
  split
  · rename_i hl
    exact ⟨h, fun x hx => by rw [hl] at hx; exact (Option.some.inj hx).symm⟩
  · rename_i hl
    have hco := h.coasting; have hoff := h.off
    cases hs : s.source.synth
    · refine ⟨h, fun x hx => ?_⟩
      have := hoff.2 hs; rw [this] at hx; cases hx
    · refine ⟨⟨h.xo, h.ref, h.selected, ?_, ?_, h.xoEnable, h.refEnable, h.preferred⟩, fun x hx => ?_⟩
      · show s.source.coasting = true ↔ _
        rw [hco, hs]; simp [SourceUnit.lockOn]
      · simp [SourceUnit.lockOn]
      · simp [SourceUnit.lockOn] at hx ⊢; exact hx.symm
    · refine ⟨⟨h.xo, h.ref, h.selected, ?_, ?_, h.xoEnable, h.refEnable, h.preferred⟩, fun x hx => ?_⟩
      · simp [SourceUnit.lockOn, State.coastOn]
      · simp [SourceUnit.lockOn, State.coastOn]
      · simp [SourceUnit.lockOn, State.coastOn] at hx ⊢; exact hx.symm
    · refine ⟨⟨h.xo, h.ref, h.selected, ?_, ?_, h.xoEnable, h.refEnable, h.preferred⟩, fun x hx => ?_⟩
      · show s.source.coasting = true ↔ _
        rw [hco, hs]; simp [SourceUnit.lockOn]
      · simp [SourceUnit.lockOn]
      · simp [SourceUnit.lockOn] at hx ⊢; exact hx.symm

theorem Pre.select {s : State} (h : s.source.Pre s.config) (x) (he : (s.source.get x).enabled = true) : SourcesGood (s.select x) := by
  unfold State.select
  apply SourceUnit.follow_good
  exact ⟨h.xo, h.ref, by cases x <;> exact he, h.coasting, h.off, h.xoEnable, h.refEnable, h.preferred⟩

theorem SourceUnit.failoverTo_enabled {u : SourceUnit} {x} (h : u.failoverTo = some x) : (u.get x).enabled = true := by
  simp only [SourceUnit.failoverTo] at h
  split at h
  · rename_i hh; cases h; exact hh.2.1
  · cases h

theorem Pre.failover {s : State} (h : s.source.Pre s.config) : s.failover.source.Pre s.failover.config := by
  unfold State.failover; split
  · exact (Pre.select h _ (SourceUnit.failoverTo_enabled ‹_›)).1
  · exact h

theorem SourcesGood.failover {s : State} (h : SourcesGood s) : SourcesGood s.failover := by
  unfold State.failover; split
  · exact Pre.select h.1 _ (SourceUnit.failoverTo_enabled ‹_›)
  · exact h

theorem SourcesGood.stop {s : State} (h : s.source.Pre s.config) : SourcesGood s.stopSynth := by
  refine ⟨⟨h.xo, h.ref, ?_, ?_, ?_, h.xoEnable, h.refEnable, h.preferred⟩, ?_⟩
  · have := h.selected
    revert this; show _ → (s.source.stop.get s.source.selected).enabled = true
    cases s.source.selected <;> exact id
  all_goals simp [State.stopSynth, SourceUnit.stop]

theorem SourcesGood.lockOn {s : State} (h : SourcesGood s) (ho : s.source.synth = .off) (t) : SourcesGood (s.setSource (s.source.lockOn .locking t)) := by
  refine ⟨⟨h.1.xo, h.1.ref, ?_, ?_, ?_, h.1.xoEnable, h.1.refEnable, h.1.preferred⟩, ?_⟩
  · have := h.1.selected
    revert this; show _ → ((s.source.lockOn .locking t).get s.source.selected).enabled = true
    cases s.source.selected <;> exact id
  · have := h.1.coasting; rw [ho] at this
    show s.source.coasting = true ↔ _
    rw [this]; simp [SourceUnit.lockOn]
  · simp [SourceUnit.lockOn]
  · intro x hx; simp [SourceUnit.lockOn] at hx ⊢; exact hx.symm

theorem SourcesGood.timer {s : State} (h : SourcesGood s) (t) : SourcesGood (s.setSource { s.source with unitTimer := t }) := by
  refine ⟨⟨h.1.xo, h.1.ref, ?_, h.1.coasting, h.1.off, h.1.xoEnable, h.1.refEnable, h.1.preferred⟩, h.2⟩
  have := h.1.selected
  simp only [State.setSource]
  revert this; cases s.source.selected <;> exact id

theorem SourcesGood.standbyRule {s : State} (h : SourcesGood s) : SourcesGood s.standbyRule := by
  unfold State.standbyRule; repeat' split
  · exact h.lockOn (by simp_all) _
  · exact h
  · exact SourcesGood.stop h.1
theorem SourcesGood.loseClock {s : State} (h : SourcesGood s) : SourcesGood s.loseClock := h.of (by simp) (by simp)
theorem SourcesGood.abandonLock {s : State} (h : SourcesGood s) : SourcesGood s.abandonLock := by
  unfold State.abandonLock; split
  · exact (SourcesGood.stop h.1).loseClock
  · exact SourcesGood.stop h.1
theorem SourcesGood.enterStandby {s : State} (h : SourcesGood s) (c) : SourcesGood (s.enterStandby c) := by
  unfold State.enterStandby; simp only []
  have : SourcesGood (s.move .standby c).withdrawGens := h.of (by simp) (by simp)
  split
  · exact this.abandonLock.standbyRule
  · exact this.standbyRule
theorem SourcesGood.enterStalled {s : State} (h : SourcesGood s) : SourcesGood s.enterStalled := by
  unfold State.enterStalled
  apply SourcesGood.stop
  exact (SourcesGood.of (s := s) (t := State.cutGens _) h (by simp) (by simp)).1
theorem SourcesGood.startUpLock {s : State} (h : SourcesGood s) : SourcesGood s.startUpLock := by
  unfold State.startUpLock; split
  · exact h.lockOn ‹_› _
  · exact h.timer _
  · exact h
  · exact h
theorem SourcesGood.enterStarting {s : State} (h : SourcesGood s) (c) : SourcesGood (s.enterStarting c) := by
  unfold State.enterStarting; simp only []
  have : SourcesGood (((s.move .starting c).setStation { (s.move .starting c).station with lockTime := some 0 }).startUpLock) :=
    SourcesGood.startUpLock (h.of (by simp) (by simp))
  split
  · exact this.enterStalled
  · exact this
theorem SourcesGood.actOnLoss {s : State} (h : SourcesGood s) : SourcesGood s.actOnLoss := by
  unfold State.actOnLoss; repeat' split
  · exact (SourcesGood.stop h.1).loseClock
  all_goals first | exact h | exact h.enterStalled

theorem SourceRecord.setEnable_ok {r : SourceRecord} (h : r.Ok) (b) : (r.setEnable b).Ok ∧ (r.setEnable b).enabled = b := by
  unfold SourceRecord.setEnable; repeat' split
  · exact ⟨h, by assumption⟩
  · refine ⟨⟨?_, ?_⟩, ?_⟩ <;> simp_all
  · refine ⟨⟨?_, ?_⟩, ?_⟩ <;> simp_all

theorem SourceUnit.takeEnables_pre {u : SourceUnit} {r0 : ConfigRecord} (h : u.Pre r0) (r : ConfigRecord) (hp : r.prefersEnabled = true) :
    (u.takeEnables r).Pre r := by
  have hx := SourceRecord.setEnable_ok h.xo r.xoEnable
  have hr := SourceRecord.setEnable_ok h.ref r.refEnable
  refine ⟨hx.1, hr.1, ?_, h.coasting, h.off, hx.2, hr.2, hp⟩
  show ((u.takeEnables r).get r.preferred).enabled = true
  unfold ConfigRecord.prefersEnabled at hp
  cases hpr : r.preferred <;> rw [hpr] at hp
  · exact hx.2.trans hp
  · exact hr.2.trans hp

theorem SourceRecord.tick_ok {r : SourceRecord} (h : r.Ok) (n) : (r.tick n).Ok ∧ (r.tick n).enabled = r.enabled := by
  unfold SourceRecord.tick; split <;> exact ⟨h, rfl⟩
theorem SourceRecord.windowEnd_ok {r : SourceRecord} (h : r.Ok) (x) : (r.windowEnd x).Ok ∧ (r.windowEnd x).enabled = r.enabled := by
  obtain ⟨hd, hg, hb⟩ := h
  have key : ∀ q : SourceRecord, q.enabled = r.enabled → (q.health = .disabled ↔ q.enabled = false) → q.good ≤ 16 → q.bad ≤ 2 →
      (({ q with health := q.healthAfter, count := 0, whole := r.enabled } : SourceRecord).Ok) ∧ q.enabled = r.enabled := by
    intro q he hq1 hq2 hq3
    refine ⟨⟨?_, hq2, hq3⟩, he⟩
    show q.healthAfter = .disabled ↔ q.enabled = false
    rw [← hq1]; unfold SourceRecord.healthAfter
    cases q.health <;> (repeat' split) <;> simp_all
  unfold SourceRecord.windowEnd; simp only []
  split
  · unfold SourceRecord.countRuns; split
    · exact key _ rfl hd (by simp) (by simp)
    · exact key _ rfl hd (by simp) (by simp)
  · exact key _ rfl hd hg hb

theorem SourceUnit.get_both (u : SourceUnit) (f : SourceRecord → Prop) : (∀ x, f (u.get x)) ↔ f u.xo ∧ f u.ref :=
  ⟨fun h => ⟨h .xo, h .ref⟩, fun h x => by cases x <;> [exact h.1; exact h.2]⟩

theorem sources_kept : Kept SourcesGood where
  elapse e s h := by
    have hx := SourceRecord.tick_ok h.1.xo e.xo
    have hr := SourceRecord.tick_ok h.1.ref e.ref
    have e1 : (s.elapse e).source = ((s.tickRc e.rc).tickSources e).source := by simp [State.elapse]
    have ec : (s.elapse e).config = s.config := by simp [State.config]
    unfold SourcesGood; rw [ec, e1]
    refine ⟨⟨hx.1, hr.1, ?_, h.1.coasting, h.1.off, hx.2.trans h.1.xoEnable, hr.2.trans h.1.refEnable, h.1.preferred⟩, h.2⟩
    have := h.1.selected
    revert this; show _ → ((((s.tickRc e.rc).tickSources e).source).get s.source.selected).enabled = true
    cases s.source.selected
    · exact fun k => hx.2.trans k
    · exact fun k => hr.2.trans k
  raise _ _ h := h.of (by simp) (by simp)
  port _ _ h e := h.of (by simp) e
  stationReset b s h := by
    unfold State.stationReset
    refine SourcesGood.standbyRule (SourcesGood.failover ?_)
    have h0 := (SourcesGood.stop h.1).1
    have h1 := SourceUnit.takeEnables_pre h0 s.config h.1.preferred
    refine ⟨⟨h1.xo, h1.ref, ?_, h1.coasting, h1.off, h1.xoEnable, h1.refEnable, h1.preferred⟩, ?_⟩
    · have := h1.selected
      revert this; show _ → ((s.sourceAfterReset).get s.config.preferred).enabled = true
      show ((s.source.stop.takeEnables s.config).get s.config.preferred).enabled = true → _
      cases s.config.preferred <;> exact id
    · intro x hx; cases hx
  powerOn b s h := by
    refine (State.sourcesOk_iff _).1 ⟨⟨?_, ?_, rfl, ?_, rfl⟩, rfl, rfl, rfl⟩
    · exact ⟨by simp [State.powerOn, State.reset, SourceUnit.reset], by simp [State.powerOn, State.reset, SourceUnit.reset], by simp [State.powerOn, State.reset, SourceUnit.reset]⟩
    · exact ⟨by simp [State.powerOn, State.reset, SourceUnit.reset], by simp [State.powerOn, State.reset, SourceUnit.reset], by simp [State.powerOn, State.reset, SourceUnit.reset]⟩
    · simp [State.powerOn, State.reset, SourceUnit.reset]
  takeConfig r s h hs hp _ := by
    have h0 := SourceUnit.takeEnables_pre h.1 r hp
    have h1 : (((s.storeConfig r).configureAnchor r).setSource (((s.storeConfig r).configureAnchor r).source.takeEnables r)).source.Pre
        (((s.storeConfig r).configureAnchor r).setSource (((s.storeConfig r).configureAnchor r).source.takeEnables r)).config := by
      have : (((s.storeConfig r).configureAnchor r).setSource (((s.storeConfig r).configureAnchor r).source.takeEnables r)).config = r := by
        simp [State.config, State.configureAnchor, State.storeConfig]
      rw [this]
      simpa [State.configureAnchor, State.storeConfig] using h0
    have h2 := (SourceUnit.follow_good _ (Pre.failover h1)).actOnLoss.standbyRule
    exact h2
  loadHoldover s h := h.of (by simp) (by simp)
  takeSeed _ _ _ h := h
  takeLabel _ _ h := h
  takeChange _ _ _ h _ := h.of (by simp [State.takeChange]) (by simp [State.takeChange])
  select x s h he := Pre.select h.1 x he
  setRestart s h := h.of (by simp) (by simp)
  enable _ _ _ h := h
  take _ h := h
  enterListen _ s h := h.of (by simp) (by simp)
  enterStandby _ s h := h.enterStandby _
  enterStarting _ s h := h.enterStarting _
  enterStalled s h := h.enterStalled
  enterWithdrawing _ _ h _ := h.of (by simp) (by simp)
  enterJoining _ s h _ := h.of (by simp) (by simp)
  enterAgreed _ s h _ := h.of (by simp) (by simp)
  enterIsolated _ _ h _ := h.of (by simp) (by simp)
  integrateTo c l m b s h := by
    unfold State.integrateClock; split <;> exact h.of (by simp) (by simp)
  found s h _ := h.of (by simp) (by simp)
  noteArrival _ _ h := h
  handToPeer _ _ _ _ h _ _ := h.of (by simp) (by simp)
  readBack _ _ h := h
  judge _ _ _ h := h
  build _ _ _ h := h.of (by simp) (by simp)
  beginFrame _ _ h := h.of (by simp) (by simp)
  releaseFrame _ _ h := h.of (by simp) (by simp)
  closeWindow _ h := h.of (by simp) (by simp)
  station _ _ h _ _ _ := h
  signal _ _ h := h.of (by simp) (by simp)
  closeTable _ h := h.of (by simp) (by simp)
  agreement _ _ h := h
  examineLabels _ _ h _ := h.of (by simp) (by simp)
  steerOnly x s h := h.of (by simp) (by simp)
  applyRules _ _ _ s h := h.of (by simp) (by simp)
  exchange _ h := h
  takeMajorityOffset _ h := h.of (by simp) (by simp)
  settleNone _ h := h
  applyDue _ h := h.of (by simp) (by simp)
  capture _ _ _ h _ := h.of (by simp) (by simp)
  dropAnchor _ _ h := h.of (by simp) (by simp)
  slewNone _ h := h
  windowEnd s h := by
    have hx := SourceRecord.windowEnd_ok h.1.xo .xo
    have hr := SourceRecord.windowEnd_ok h.1.ref .ref
    refine ⟨⟨hx.1, hr.1, ?_, h.1.coasting, h.1.off, hx.2.trans h.1.xoEnable, hr.2.trans h.1.refEnable, h.1.preferred⟩, h.2⟩
    have := h.1.selected
    revert this; show _ → (s.source.windowEnd.get s.source.selected).enabled = true
    cases s.source.selected
    · exact fun k => hx.2.trans k
    · exact fun k => hr.2.trans k
  failover s h := h.failover
  loseClock s h _ := h.loseClock
  standbyRule _ h := h.standbyRule
  stopSynth _ h := SourcesGood.stop h.1
  completeLock s h hl := by
    have : s.source.synth ≠ .off := by intro e; simp [SourceUnit.locking, e] at hl
    refine ⟨⟨h.1.xo, h.1.ref, ?_, ?_, ?_, h.1.xoEnable, h.1.refEnable, h.1.preferred⟩, h.2⟩
    · have := h.1.selected
      revert this; show _ → ((State.completeLock s).source.get s.source.selected).enabled = true
      cases s.source.selected <;> exact id
    · simp [State.completeLock]
    · have := h.1.off; simp [State.completeLock]; simp_all
  markFailed x s h hl hlk := by
    have hsel := h.2 x hl
    have hen : (s.source.get x).enabled = true := by rw [hsel]; exact h.1.selected
    have h1 : SourcesGood (s.setSource (s.source.put x (s.source.get x).failLock)) := by
      have hok : (s.source.get x).failLock.Ok := ⟨by simp [SourceRecord.failLock, hen], by simp [SourceRecord.failLock], by simp [SourceRecord.failLock]⟩
      subst hsel
      have hs := h.1.selected
      cases hx : s.source.selected <;> rw [hx] at hok hs hen
      · refine ⟨⟨hok, h.1.ref, ?_, h.1.coasting, h.1.off, h.1.xoEnable, h.1.refEnable, h.1.preferred⟩, h.2⟩
        show ((s.source.put .xo (s.source.get .xo).failLock).get s.source.selected).enabled = true
        rw [hx]; exact hen
      · refine ⟨⟨h.1.xo, hok, ?_, h.1.coasting, h.1.off, h.1.xoEnable, h.1.refEnable, h.1.preferred⟩, h.2⟩
        show ((s.source.put .ref (s.source.get .ref).failLock).get s.source.selected).enabled = true
        rw [hx]; exact hen
    unfold State.markFailed; simp only []; split
    · exact h1
    · exact h1.of (by simp) (by simp)
  gens _ _ h := h
  timecode _ _ h := h
end Sys2Proof.Machine
end

