-- ==== Sys2Proof/Laws/Standby.lean ====
section
/-! SUPPORT. The clock lost in STANDBY (R106, R144), the lock an entry gives up (R38, R124), what R125 can change
there, and a step at the Link Unit with the greatest reading shown (R15, R18). -/

namespace Sys2Proof.Machine

/-- R125 changes the Source Unit alone. -/
theorem State.standbyRule_eq (s : State) : s.standbyRule = s.setSource s.standbyRule.source := by
  unfold State.standbyRule State.stopSynth; split
  · split <;> simp [State.setSource]
  · simp

/-- A lock given up leaves the Source Unit stopped (R124). -/
@[simp] theorem State.abandonLock_source (s : State) : s.abandonLock.source = s.source.stop := by
  unfold State.abandonLock; split <;> simp [State.stopSynth]

/-- A WITHDRAW to STANDBY gives up the start-up lock and every lock in progress (R38; log 53). -/
theorem State.abandonsLock_withdrawn {s : State}
    (h : s.station.state = .starting ∨ s.station.state = .listen ∨ s.station.state = .stalled) :
    s.abandonsLock .withdrawn = true ↔
      s.station.state = .starting ∨ s.source.synth = .locking ∨ s.source.synth = .relocking := by
  rcases h with h | h | h <;> cases k : s.source.synth <;> simp [State.abandonsLock, h, SourceUnit.locking, k]

/-- Entry into STANDBY runs or stops the synthesizer after it has given up the lock, where it gives one up (R125). -/
theorem State.enterStandby_of_abandons {s : State} {c : Cause} (h : s.abandonsLock c = true) :
    s.enterStandby c = ((s.move .standby c).withdrawGens.abandonLock).standbyRule := by
  simp only [State.enterStandby, h, if_true]

theorem State.enterStandby_of_keeps {s : State} {c : Cause} (h : s.abandonsLock c = false) :
    s.enterStandby c = ((s.move .standby c).withdrawGens).standbyRule := by
  simp [State.enterStandby, h]

/-- A run ended, by the state of the generator (R144). -/
theorem Generator.endRun_spec (g : Generator) : (g.state = .running → g.endRun = { g with state := .stopping }) ∧
    (g.state = .armed → g.endRun = { g with state := .off, next := none, pinHighUntil := none }) ∧
    (g.state = .off ∨ g.state = .stopping → g.endRun = g) := by
  refine ⟨?_, ?_, ?_⟩ <;> intro h
  · simp [Generator.endRun, h]
  · simp [Generator.endRun, h, Generator.cut]
  · rcases h with h | h <;> simp [Generator.endRun, h]

/-- The on-withdraw setting ends no run otherwise than the loss of the clock does after it (R142, R144). -/
theorem Generator.endRun_withdraw (g : Generator) (how : OnWithdraw) : (g.withdraw how).endRun = g.endRun := by
  cases how <;> rcases h : g.state <;> simp [Generator.withdraw, h, Generator.endRun, Generator.cut]

/-- The generators after the loss of a valid clock. -/
theorem State.loseClock_gen {s : State} (h : s.clockValid = true) (i : Fin 4) : s.loseClock.gens[i] = (s.gens[i]).endRun := by
  have : s.loseClock.gens = tabulate 4 fun i => s.gens[i].endRun := by
    simp [State.loseClock, h, State.endRuns, State.invalidateClock]
  rw [this]; exact tabulate_get ..

/-- A valid clock is lost. -/
theorem State.loseClock_losesClock {s : State} (h : s.clockValid = true) : LosesClock s s.loseClock := by
  refine ⟨?_, fun i => ?_, ?_, fun ha he => ?_⟩
  · simp only [State.loseClock, h, if_true, State.invalidateClock, State.dropAnchor]; split <;> simp [State.endRuns]
  · simp only []
    rw [State.loseClock_gen h]; exact (s.gens[i]).endRun_spec
  · simp only [State.loseClock, h, if_true, State.invalidateClock, State.dropAnchor, Anchor.drop, State.endRuns]
    split <;> simp
  · have e : s.loseClock.notices = s.notices.occur (.anchorChanged false .clock) none := by
      simp [State.loseClock, h, State.endRuns, State.invalidateClock, State.dropAnchor, ha, State.raise, State.reading]
    rw [e, NoticeUnit.occur_record, if_pos ⟨he, rfl⟩]
    cases s.notices.records[(Notice.anchorChanged false .clock).kind] <;> rfl

/-- What an operation changes before and after the loss does not matter where it leaves clock, anchor, runs and enables, and
then what the loss has left of them. -/
theorem LosesClock.of {u s t : State} (h : s.clockValid = true) (hg : ∀ i : Fin 4, (s.gens[i]).endRun = (u.gens[i]).endRun)
    (ha : s.anchor = u.anchor) (hn : s.notices.enables = u.notices.enables)
    (td : t.discipline.clock = s.loseClock.discipline.clock) (tg : t.gens = s.loseClock.gens)
    (ta : t.anchor = s.loseClock.anchor)
    (tn : t.notices.records[(17 : Fin 27)] = s.loseClock.notices.records[(17 : Fin 27)]) : LosesClock u t := by
  obtain ⟨a, _, c, d⟩ := State.loseClock_losesClock h
  refine ⟨td ▸ a, fun i => ?_, by rw [ta, c, ha], fun hv he => ?_⟩
  · simp only []
    rw [tg, State.loseClock_gen h, hg i]; exact (u.gens[i]).endRun_spec
  · rw [← d (ha ▸ hv) (by rw [hn]; exact he)]
    exact congrArg _ tn

/-- Where an occasion to build opens, the greatest reading shown stays. -/
@[simp] theorem State.openOccasion_furthest (s : State) : s.openOccasion.link.furthest = s.link.furthest := by
  unfold State.openOccasion; split
  · rfl
  · split <;> rfl

/-- The clock once set has shown its reading (R15; log 41). -/
theorem State.setClock_furthest (units : Nat) (s : State) : (s.setClock units).link.furthest = some (clampUnits units / unitsPerNs) := by
  simp [State.setClock]

/-- An occasion to build, where one opens, changes nothing else of the Link Unit. -/
theorem State.openOccasion_link (s : State) :
    s.openOccasion.link = { s.link with buildOpen := s.openOccasion.link.buildOpen } := by
  unfold State.openOccasion; split
  · rfl
  · split <;> rfl

/-- What a step does to the Link Unit, but for the occasion to build (R2, R3, R15, R16, R18). -/
theorem State.stepClock_link {s : State} {amount : Int} {c : Nat} (h : s.discipline.clock = some c) (ha : amount ≠ 0) :
    (s.stepClock amount).link = { s.link.onStep s.station.state.closesRounds s.synthTime (c / unitsPerNs)
        (clampUnits (c + amount * unitsPerNs) / unitsPerNs) amount with
      buildOpen := (s.stepClock amount).link.buildOpen } := by
  simp only [State.stepClock, h, if_neg ha]
  rw [State.openOccasion_link]; simp

/-- The record of a window that is not to be judged ends with a step into another round, and no other does (log 54). -/
theorem Link.readBackAfterStep_spec (l : Link) (a a' : Nat) :
    (l.toJudge = none → roundOf a ≠ roundOf a' → l.readBackAfterStep a a' = ReadBack.cleared) ∧
    (l.toJudge ≠ none ∨ roundOf a = roundOf a' → l.readBackAfterStep a a' = l.readBack) := by
  unfold Link.readBackAfterStep
  refine ⟨fun h1 h2 => by simp [h1, h2], fun h => ?_⟩
  rcases h with h | h
  · cases k : l.toJudge <;> simp_all
  · simp [h]

/-- A step shows the reading it leaves and the one it reaches (R15; log 41). -/
theorem State.stepClock_furthest {s : State} {amount : Int} {c : Nat} (h : s.discipline.clock = some c) (ha : amount ≠ 0) :
    (s.stepClock amount).link.furthest =
      some (max (s.link.shows (c / unitsPerNs)) (clampUnits (c + amount * unitsPerNs) / unitsPerNs)) := by
  rw [State.stepClock_link h ha]; rfl

end Sys2Proof.Machine
end

