-- ==== Sys2Proof/Laws/Stations.lean ====
section
/-! SUPPORT. Station state, mode, timers and clock: what each transition and each change of the clock keeps (R4, R22, R85, R106). -/

namespace Sys2Proof.Machine

/-- What StationOk reads, but for the round end owed. -/
structure View where
  mode : ReceptionMode
  state : StationState
  listen : Bool
  lock : Bool
  clock : Option Nat
  slew : Bool
  valid : Bool
  offset : Bool
  change : Bool

def State.view (s : State) : View :=
  ⟨s.link.mode, s.station.state, s.station.listenTimer.isSome, s.station.lockTime.isSome, s.discipline.clock,
    s.discipline.slew.isSome, s.anchor.valid, s.anchor.offset.isSome, s.anchor.change.isSome⟩

structure View.Ok (v : View) : Prop where
  mode : v.mode = v.state.mode
  listen : v.listen = true ↔ v.state = .listen
  lock : v.lock = true ↔ v.state = .starting
  transmits : v.state.transmits = true → v.clock.isSome = true
  stalled : v.state = .stalled → v.clock = none
  anchorOffset : v.valid = true → v.offset = true
  anchorClock : v.offset = true → v.clock.isSome = true
  slewClock : v.slew = true → v.clock.isSome = true
  changeClock : v.change = true → v.clock.isSome = true
  range : ∀ c, v.clock = some c → c ≤ maxReading * unitsPerNs

def ViewOk (s : State) : Prop := s.view.Ok
theorem ViewOk.of {s t : State} (h : ViewOk s) (e : t.view = s.view) : ViewOk t := by unfold ViewOk; rw [e]; exact h

theorem clampUnits_le (x : Int) : clampUnits x ≤ maxReading * unitsPerNs := Nat.min_le_left _ _

theorem view_raise (n) (s : State) : (s.raise n).view = s.view := by simp [State.view]
theorem view_raiseAll (n) (s : State) : (s.raiseAll n).view = s.view := by simp [State.view]
theorem view_openOccasion (s : State) : s.openOccasion.view = s.view := by
  unfold State.openOccasion; repeat' split
  all_goals rfl

/-- The view after a transition. -/
theorem view_move (st c) (s : State) : (s.move st c).view = { s.view with state := st, mode := st.mode, listen := false, lock := false } := by
  unfold State.move; simp only []
  unfold State.enterMode
  cases st <;> simp [State.view, StationState.mode]

/-- A state may be entered: it does not transmit or the clock is valid, and it is not STALLED. -/
theorem ViewOk.enter {s : State} (h : ViewOk s) (st c) (ht : st.transmits = true → s.clockValid = true) (hs : st ≠ .stalled)
    (h1 : st ≠ .listen) (h2 : st ≠ .starting) : ViewOk (s.move st c) := by
  unfold ViewOk; rw [view_move]
  exact ⟨rfl, by simp [h1], by simp [h2], ht, fun e => absurd e hs, h.anchorOffset, h.anchorClock, h.slewClock, h.changeClock, h.range⟩

theorem ViewOk.invalidate {s : State} (h : ViewOk s) (ht : s.station.state.transmits = false) : ViewOk s.invalidateClock := by
  have e : s.invalidateClock.view = ⟨s.link.mode, s.station.state, s.station.listenTimer.isSome, s.station.lockTime.isSome, none, false, false, false, false⟩ := by
    unfold State.invalidateClock State.dropAnchor; simp only []
    split <;> simp [State.view, Anchor.drop]
  unfold ViewOk; rw [e]
  refine ⟨h.mode, h.listen, h.lock, ?_, fun _ => rfl, ?_, ?_, ?_, ?_, ?_⟩
  · intro k; rw [show ((View.mk _ _ _ _ _ _ _ _ _).state) = s.station.state from rfl, ht] at k; cases k
  all_goals simp
theorem ViewOk.loseClock {s : State} (h : ViewOk s) (ht : s.station.state.transmits = false) : ViewOk s.loseClock := by
  unfold State.loseClock; split
  · refine ViewOk.of (h.invalidate ht) (by simp [State.view])
  · exact h
theorem ViewOk.standbyRule {s : State} (h : ViewOk s) : ViewOk s.standbyRule := h.of (by simp [State.view])
theorem ViewOk.enterStandby {s : State} (h : ViewOk s) (c) : ViewOk (s.enterStandby c) := by
  unfold State.enterStandby State.abandonLock; simp only []
  have h1 : ViewOk (s.move .standby c).withdrawGens := (h.enter .standby c (by simp [StationState.transmits]) (by simp) (by simp) (by simp)).of (by simp [State.view])
  have hst : (s.move .standby c).withdrawGens.station.state = .standby := by simp [State.move]
  (repeat' split) <;> refine ViewOk.standbyRule ?_
  · exact ViewOk.loseClock (h1.of (by simp [State.view])) (by rw [State.stopSynth, State.setSource_station, hst]; rfl)
  · exact h1.of (by simp [State.view])
  · exact h1
theorem ViewOk.enterStalled {s : State} (h : ViewOk s) : ViewOk s.enterStalled := by
  have e : s.enterStalled.view = { ((s.move .stalled .source).stallLink.invalidateClock).view with slew := ((s.move .stalled .source).stallLink.invalidateClock).view.slew } := by
    unfold State.enterStalled; simp [State.view, Discipline.stall, Station.stall]
  have h0 : (s.move .stalled .source).stallLink.view = (s.move .stalled .source).view := by
    have : (s.move .stalled .source).link.mode = .off := by
      have := congrArg View.mode (view_move .stalled .source s); exact this
    simp [State.stallLink, State.view, State.enterMode, this, State.cutOff]
  refine ViewOk.of (t := s.enterStalled) (s := (s.move .stalled .source).stallLink.invalidateClock) ?_ e
  -- not yet in order before the clock is lost
  have e2 : (s.move .stalled .source).stallLink.invalidateClock.view = ⟨.off, .stalled, false, false, none, false, false, false, false⟩ := by
    have hv : (s.move .stalled .source).stallLink.view = _ := h0.trans (view_move _ _ _)
    have := congrArg View.mode hv; have := congrArg View.state hv; have := congrArg View.listen hv; have := congrArg View.lock hv
    unfold State.invalidateClock State.dropAnchor; simp only []
    split <;> simp_all [State.view, Anchor.drop, StationState.mode]
  unfold ViewOk; rw [e2]
  exact ⟨rfl, by simp, by simp, by simp [StationState.transmits], fun _ => rfl, by simp, by simp, by simp, by simp, by simp⟩
theorem ViewOk.enterStarting {s : State} (h : ViewOk s) (c) : ViewOk (s.enterStarting c) := by
  unfold State.enterStarting; simp only []
  have e : (((s.move .starting c).setStation { (s.move .starting c).station with lockTime := some 0 }).startUpLock).view
      = { s.view with state := .starting, mode := .off, listen := false, lock := true } := by
    have := view_move .starting c s
    have h1 := congrArg View.mode this; have h2 := congrArg View.state this; have h3 := congrArg View.listen this
    simp [State.view] at h1 h2 h3 ⊢
    exact ⟨h1, h2, h3⟩
  have h1 : ViewOk (((s.move .starting c).setStation { (s.move .starting c).station with lockTime := some 0 }).startUpLock) := by
    unfold ViewOk; rw [e]
    exact ⟨rfl, by simp, by simp, by simp [StationState.transmits], by simp, h.anchorOffset, h.anchorClock, h.slewClock, h.changeClock, h.range⟩
  split
  · exact h1.enterStalled
  · exact h1
theorem ViewOk.enterListen {s : State} (h : ViewOk s) (c) : ViewOk (s.enterListen c) := by
  have e : (s.enterListen c).view = { s.view with state := .listen, mode := .openMode, listen := true, lock := false } := by
    have := view_move .listen c s
    have h1 := congrArg View.mode this; have h2 := congrArg View.state this; have h3 := congrArg View.lock this
    simp [State.enterListen, State.view] at h1 h2 h3 ⊢
    exact ⟨h1, h2, h3⟩
  unfold ViewOk; rw [e]
  exact ⟨rfl, by simp, by simp, by simp [StationState.transmits], by simp, h.anchorOffset, h.anchorClock, h.slewClock, h.changeClock, h.range⟩

theorem view_applyDue (s : State) : s.applyDue.view = s.view ∨ s.applyDue.view = { s.view with change := false } := by
  unfold State.applyDue; repeat' split
  · right; simp [State.applyChange, State.view]
  · left; rfl
  · left; rfl
/-- dropping the change keeps order -/
theorem View.Ok.change {v : View} (h : v.Ok) (b) (hb : b = true → v.clock.isSome = true) : ({ v with change := b } : View).Ok :=
  ⟨h.mode, h.listen, h.lock, h.transmits, h.stalled, h.anchorOffset, h.anchorClock, h.slewClock, hb, h.range⟩
theorem ViewOk.applyDue {s : State} (h : ViewOk s) : ViewOk s.applyDue := by
  rcases view_applyDue s with e | e
  · exact h.of e
  · unfold ViewOk; rw [e]; exact View.Ok.change h _ (by simp)

theorem ViewOk.openOccasion {s : State} (h : ViewOk s) : ViewOk s.openOccasion := h.of (view_openOccasion s)
theorem ViewOk.stepClock {s : State} (h : ViewOk s) (a) : ViewOk (s.stepClock a) := by
  unfold State.stepClock; split
  · exact h
  · rename_i c hc
    split
    · exact ⟨h.mode, h.listen, h.lock, h.transmits, h.stalled, h.anchorOffset, h.anchorClock, by simp [State.view], h.changeClock,
        h.range⟩
    · refine ViewOk.openOccasion (ViewOk.applyDue ?_)
      have hv : s.view.clock = some c := hc
      unfold ViewOk State.view; simp
      refine ⟨h.mode, h.listen, h.lock, fun _ => rfl, ?_, ?_, ?_, ?_, fun _ => rfl, ?_⟩
      · intro e; have := h.stalled e; rw [hv] at this; cases this
      · intro e; have := h.anchorOffset e; simp [State.view] at this; simpa [Anchor.onStep] using this
      · intro; rfl
      · simp
      · intro c' hc'; cases hc'; exact clampUnits_le _
theorem ViewOk.stepNoticed {s : State} (h : ViewOk s) (o a) : ViewOk (s.stepNoticed o a) := by
  unfold State.stepNoticed; split
  · exact h.stepClock 0
  · exact (h.stepClock a).of (view_raise _ _)
/-- Setting the clock keeps order, whatever the clock was, even where the state needed one. -/
theorem ViewOk.setClock {s : State} (u) (hm : s.link.mode = s.station.state.mode)
    (hl : s.station.listenTimer.isSome = true ↔ s.station.state = .listen) (hk : s.station.lockTime.isSome = true ↔ s.station.state = .starting)
    (hs : s.station.state ≠ .stalled) (ha : s.anchor.valid = true → s.anchor.offset.isSome = true) : ViewOk (s.setClock u) := by
  unfold State.setClock
  refine ViewOk.openOccasion ?_
  unfold ViewOk State.view; simp
  exact ⟨hm, hl, hk, fun _ => rfl, fun e => absurd e hs, ha, fun _ => rfl, fun _ => rfl, fun _ => rfl, fun c' hc' => by cases hc'; exact clampUnits_le _⟩
theorem ViewOk.enterTransmit {s : State} (h : ViewOk s) (st c) (ht : st.transmits = true) (hc : s.clockValid = true) : ViewOk (s.move st c) :=
  h.enter st c (fun _ => hc) (by rintro rfl; simp [StationState.transmits] at ht) (by rintro rfl; simp [StationState.transmits] at ht) (by rintro rfl; simp [StationState.transmits] at ht)
theorem view_enterJoining (c) (s : State) : (s.enterJoining c).view = (s.move .joining c).view := by
  unfold State.enterJoining; rw [view_openOccasion]; simp [State.view]
theorem view_enterFounding (c) (s : State) : (s.enterFounding c).view = (s.move .founding c).view := by
  unfold State.enterFounding; simp only []; rw [view_openOccasion]; simp [State.view]
theorem foldl_view (f : State → Fin 4 → State) (hf : ∀ t i, (f t i).view = t.view) (l : List (Fin 4)) (s : State) : (l.foldl f s).view = s.view := by
  induction l generalizing s with
  | nil => rfl
  | cons i l ih => simp [ih, hf]
theorem ViewOk.foundClock {s : State} (h : ViewOk s) (hm : s.mayFound = true) (c) : ViewOk (s.enterFounding c).foundClock := by
  have e0 : (s.enterFounding c).view = _ := (view_enterFounding c s).trans (view_move .founding c s)
  have ea : (s.enterFounding c).anchor = s.anchor := by simp
  have ed : (s.enterFounding c).discipline = s.discipline := by simp
  have es : (s.enterFounding c).station.seed = s.station.seed := by simp [State.enterFounding, State.move]
  by_cases hc : s.clockValid = true
  · have h1 : ViewOk (s.enterFounding c) := (h.enterTransmit .founding c rfl hc).of (view_enterFounding c s)
    unfold State.foundClock; split
    · exact h1.stepNoticed _ _
    · rename_i hcv _
      exfalso
      have hz : (s.enterFounding c).clockValid = false := by assumption
      have : (s.enterFounding c).clockValid = s.clockValid := by simp [State.clockValid]
      rw [this, hc] at hz; cases hz
    · exact h1
  · have hv : s.anchor.valid = false := by
      by_contra hv
      have := h.anchorClock (h.anchorOffset (by simpa [State.view] using hv))
      exact hc this
    have hseed : s.station.seed.isSome = true := by
      simp [State.mayFound, hv, State.seeded] at hm; exact hm.2
    obtain ⟨w, hw⟩ := Option.isSome_iff_exists.1 hseed
    have hcf : (s.enterFounding c).clockValid = false := by
      rw [State.clockValid, ed]; simpa [State.clockValid] using hc
    have : (s.enterFounding c).foundClock = (s.enterFounding c).setClock w.units := by
      unfold State.foundClock; rw [ea, hcf, es, hw, hv]
    rw [this]
    apply ViewOk.setClock
    · exact (congrArg View.mode e0).trans (by rw [show (s.enterFounding c).station.state = .founding from congrArg View.state e0])
    · rw [show (s.enterFounding c).station.state = .founding from congrArg View.state e0]
      have := congrArg View.listen e0; simp [State.view] at this; simp [this]
    · rw [show (s.enterFounding c).station.state = .founding from congrArg View.state e0]
      have := congrArg View.lock e0; simp [State.view] at this; simp [this]
    · rw [show (s.enterFounding c).station.state = .founding from congrArg View.state e0]; simp
    · rw [ea, hv]; simp
theorem ViewOk.view_src {s : State} (h : ViewOk s) (u) : ViewOk (s.setSource u) := h

theorem view_follow (s : State) : s.follow.view = s.view := by
  unfold State.follow; repeat' split
  all_goals first | rfl | simp [State.coastOn, State.view, State.cutOff]
theorem view_select (x) (s : State) : (s.select x).view = s.view := by unfold State.select; rw [view_follow]; rfl
theorem view_failover (s : State) : s.failover.view = s.view := by
  unfold State.failover; split
  · exact view_select _ _
  · rfl
theorem ViewOk.elapse (e) (s : State) (h : ViewOk s) : ViewOk (s.elapse e) := by
  unfold ViewOk State.elapse State.tickClock; simp only []
  have hc : ((s.tickRc e.rc).tickSources e).discipline = s.discipline := by simp
  split
  · have e : (((s.tickRc e.rc).tickSources e)).view = s.view := by simp [State.view, State.tickRc]
    exact ViewOk.of h e
  · rename_i c hcc
    rw [hc] at hcc
    have hv : s.view.clock = some c := hcc
    refine ⟨?_, ?_, ?_, fun _ => rfl, ?_, ?_, fun _ => rfl, fun _ => rfl, fun _ => rfl, ?_⟩
    · simpa [State.view, State.tickRc] using h.mode
    · simpa [State.view, State.tickRc] using h.listen
    · simpa [State.view, State.tickRc] using h.lock
    · intro k
      have : s.view.state = .stalled := by simpa [State.view, State.tickRc] using k
      have := h.stalled this; rw [hv] at this; cases this
    · intro k; have := h.anchorOffset (by simpa [State.view] using k)
      simpa [State.view] using this
    · intro c' hc'; cases hc'; exact clampUnits_le _

theorem station_kept : Kept ViewOk where
  elapse e s h := ViewOk.elapse e s h
  raise _ _ h := h.of (view_raise _ _)
  port _ _ h e := h
  stationReset b s h := by
    unfold State.stationReset
    refine ViewOk.standbyRule (ViewOk.of ?_ (view_failover _))
    exact ⟨rfl, by simp [State.view, Station.reset], by simp [State.view, Station.reset], by simp [State.view, Station.reset, StationState.transmits],
      by simp [State.view, Station.reset], by simp [State.view, Anchor.reset], by simp [State.view, Anchor.reset],
      by simp [State.view, Discipline.afterReset, Discipline.reset], by simp [State.view, Anchor.reset], by simp [State.view, Discipline.afterReset, Discipline.reset]⟩
  powerOn b s h :=
    ⟨rfl, by simp [State.view, State.powerOn, State.reset, Station.reset], by simp [State.view, State.powerOn, State.reset, Station.reset], by simp [State.view, State.powerOn, State.reset, Station.reset, StationState.transmits],
      by simp [State.view, State.powerOn, State.reset, Station.reset], by simp [State.view, State.powerOn, State.reset, Anchor.reset], by simp [State.view, State.powerOn, State.reset, Anchor.reset],
      by simp [State.view, State.powerOn, State.reset, Discipline.reset], by simp [State.view, State.powerOn, State.reset, Anchor.reset], by simp [State.view, State.powerOn, State.reset, Discipline.reset]⟩
  takeConfig r s h hs hp _ := by
    have h1 : ViewOk (((s.storeConfig r).configureAnchor r)) := by
      have e : ((s.storeConfig r).configureAnchor r).view = { s.view with slew := false, valid := false, offset := false, change := false } := by
        unfold State.configureAnchor State.dropAnchor; simp only []
        split <;> simp [State.view, State.storeConfig, Anchor.drop, Link.configure, Discipline.configure]
      unfold ViewOk; rw [e]
      exact ⟨h.mode, h.listen, h.lock, h.transmits, h.stalled, by simp, by simp, by simp, by simp, h.range⟩
    have hst : ((s.storeConfig r).configureAnchor r).station.state = .standby := by
      simp [State.configureAnchor, State.storeConfig, hs]
    have h2 : ViewOk (((s.storeConfig r).configureAnchor r).configureSource r) := by
      unfold State.configureSource
      refine ViewOk.standbyRule ?_
      have h3 : ViewOk ((((s.storeConfig r).configureAnchor r).setSource (((s.storeConfig r).configureAnchor r).source.takeEnables r)).failover.follow) :=
        ViewOk.of h1 ((view_follow _).trans (view_failover _))
      have h4 : ((((s.storeConfig r).configureAnchor r).setSource (((s.storeConfig r).configureAnchor r).source.takeEnables r)).failover.follow).station.state = .standby := by
        simp [hst]
      unfold State.actOnLoss; simp only [h4]; split
      · exact ViewOk.loseClock h3 (by rw [State.stopSynth, State.setSource_station, h4]; rfl)
      · exact h3
    exact h2
  loadHoldover s h := by
    unfold State.loadHoldover; simp only []; split
    · exact ViewOk.of h (view_raiseAll _ _)
    · exact h
  takeSeed _ _ _ h := h
  takeLabel _ _ h := h
  takeChange x y s h ht := by
    unfold State.takeChange
    refine ViewOk.of ?_ (view_raise _ _)
    exact View.Ok.change h true (fun _ => h.transmits ht)
  select x s h he := h.of (view_select _ _)
  setRestart s h := h
  enable _ _ _ h := h
  take _ h := h
  enterListen _ s h := h.enterListen _
  enterStandby _ s h := h.enterStandby _
  enterStarting _ s h := h.enterStarting _
  enterStalled s h := h.enterStalled
  enterWithdrawing c s h ht := by
    unfold State.enterWithdrawing; simp only []
    refine ViewOk.openOccasion ((h.enterTransmit .withdrawing c rfl (h.transmits ht)).of ?_)
    rfl
  enterJoining c s h ht := (h.enterTransmit .joining c rfl (h.transmits ht)).of (view_enterJoining c s)
  enterAgreed c s h ht := by
    refine ViewOk.of (h.enterTransmit .agreed c rfl (h.transmits ht)) ?_
    unfold State.enterAgreed; simp only []
    rw [view_openOccasion]
    unfold State.armAll
    rw [foldl_view]
    · rfl
    · intro t i; unfold State.armOne; repeat' split
      all_goals rfl
  enterIsolated c s h ht := by
    unfold State.enterIsolated
    exact ViewOk.openOccasion (h.enterTransmit .isolated c rfl (h.transmits ht))
  integrateTo c l m b s h := by
    have e0 : (s.enterJoining c).view = _ := (view_enterJoining c s).trans (view_move .joining c s)
    have ed : (s.enterJoining c).discipline.clock = s.discipline.clock := by simp [State.enterJoining]
    have ea : (s.enterJoining c).anchor = s.anchor := by simp
    have est : (s.enterJoining c).station.state = .joining := congrArg View.state e0
    have h1 : s.clockValid = true → ViewOk (s.enterJoining c) := fun hc =>
      (h.enterTransmit .joining c rfl hc).of (view_enterJoining c s)
    unfold State.integrateClock; simp only []; split
    · rename_i hr
      apply ViewOk.setClock
      · exact (congrArg View.mode e0).trans (by rw [est])
      · rw [est]; have := congrArg View.listen e0; simp [State.view] at this; simp [this]
      · rw [est]; have := congrArg View.lock e0; simp [State.view] at this; simp [this]
      · rw [est]; simp
      · rw [ea]; exact h.anchorOffset
    · rename_i a x hr
      refine (h1 ?_).stepClock _
      simp only [State.reading, ed] at hr
      cases hd : s.discipline.clock <;> simp_all [State.clockValid]
    · rename_i a hr
      refine (h1 ?_).stepClock _
      simp only [State.reading, ed] at hr
      cases hd : s.discipline.clock <;> simp_all [State.clockValid]
  found s h hm := h.foundClock hm _
  noteArrival _ _ h := h
  handToPeer _ _ _ s h _ _ := by
    unfold State.handToPeer; exact ViewOk.of h (view_raiseAll _ _)
  readBack _ _ h := h
  judge _ _ _ h := h
  build _ _ _ h := h
  beginFrame _ _ h := h
  releaseFrame _ _ h := h
  closeWindow _ h := h
  station t s h e1 e2 e3 := by
    refine ViewOk.of h ?_
    simp [State.view, e1, e2, e3]
  signal i s h := by
    unfold State.signal; simp only []; split <;> exact h
  closeTable s h := by unfold State.closeTable; exact ViewOk.of h (view_raiseAll _ _)
  agreement _ _ h := h
  examineLabels c s h ht := by
    unfold State.examineLabels; simp only []
    have hc : s.view.clock.isSome = true := h.transmits ht
    repeat' split
    all_goals first
      | exact h
      | (unfold State.labelConflict; refine ViewOk.of (s := s.setAnchor { s.anchor with change := none }) ?_ (view_raise _ _); exact View.Ok.change h false (by simp))
      | (unfold State.adopt; exact ViewOk.applyDue (ViewOk.of (s := s.setAnchor { s.anchor with change := some _ }) (View.Ok.change h true (fun _ => hc)) (view_raise _ _)))
  steerOnly x s h := by
    unfold State.steerOnly State.chooseSlew; repeat' split
    · exact h
    rotate_left
    · exact h
    rename_i a ha
    have hc : s.view.clock.isSome = true := by
      simp [State.reading] at ha; obtain ⟨c, hc, _⟩ := ha; simp [State.view, hc]
    exact ⟨h.mode, h.listen, h.lock, h.transmits, h.stalled, h.anchorOffset, h.anchorClock, fun _ => hc, h.changeClock, h.range⟩
  applyRules e m x s h := by
    have hsteer : ∀ (s : State) x, ViewOk s → ViewOk (s.chooseSlew x) := by
      intro s x h
      unfold State.chooseSlew; split
      · rename_i a ha
        have hc : s.view.clock.isSome = true := by
          simp [State.reading] at ha; obtain ⟨c, hc, _⟩ := ha; simp [State.view, hc]
        exact ⟨h.mode, h.listen, h.lock, h.transmits, h.stalled, h.anchorOffset, h.anchorClock, fun _ => hc, h.changeClock, h.range⟩
      · exact h
    have hso : ∀ x, ViewOk (s.steerOnly x) := by
      intro x; unfold State.steerOnly; split
      · exact h
      · exact hsteer _ _ h
    have hint : ∀ (s : State) e, ViewOk s → ViewOk (s.integrate e) := by
      intro s e h; unfold State.integrate; exact ViewOk.of h (view_raiseAll _ _)
    unfold State.applyRules; split
    · exact ViewOk.stepNoticed (by exact h) _ _
    · exact hso _
    · exact ViewOk.stepNoticed (by exact h) _ _
    · exact hint _ _ (hsteer _ _ h)
    · exact hso _
    · exact hint _ _ (hsteer _ _ h)
  exchange _ h := h
  takeMajorityOffset s h := by
    unfold State.takeMajorityOffset; repeat' split
    all_goals exact h
  settleNone _ h := h
  applyDue _ h := h.applyDue
  capture x t s h hr := by
    have hc : s.view.clock.isSome = true := by
      simp [State.reading] at hr; obtain ⟨c, hc, _⟩ := hr; simp [State.view, hc]
    have h1 : ViewOk (s.setAnchor (s.anchor.captured ((x : Int) * nsPerSec - t))) :=
      ⟨h.mode, h.listen, h.lock, h.transmits, h.stalled, fun _ => rfl, fun _ => hc, h.slewClock, h.changeClock, h.range⟩
    unfold State.capture; simp only []
    repeat' split
    · exact h1.of (view_raise _ _)
    · exact h1.of (view_raise _ _)
    · exact h1
  dropAnchor c s h := by
    have h1 : ViewOk (s.setAnchor s.anchor.drop) :=
      ⟨h.mode, h.listen, h.lock, h.transmits, h.stalled, by simp [State.view, Anchor.drop], by simp [State.view, Anchor.drop], h.slewClock, h.changeClock, h.range⟩
    unfold State.dropAnchor; simp only []; split
    · exact h1.of (view_raise _ _)
    · exact h1
  slewNone _ h := ⟨h.mode, h.listen, h.lock, h.transmits, h.stalled, h.anchorOffset, h.anchorClock, by simp [State.view], h.changeClock, h.range⟩
  windowEnd s h := h
  failover s h := h.of (view_failover s)
  loseClock s h hs := h.loseClock (by rw [hs]; rfl)
  standbyRule _ h := h.standbyRule
  stopSynth _ h := h
  completeLock s h hl := h
  markFailed x s h hl hlk := by
    unfold State.markFailed; simp only []; split
    · exact h
    · exact ViewOk.of h (view_raise _ _)
  gens _ _ h := h
  timecode _ _ h := h
end Sys2Proof.Machine
end

