-- ==== Sys2Proof/Tests/Slice0.lean ====
section
/-! SUPPORT. The model's own tests: the checks on operands, the manual's tables and worked examples, and, for each
statement with hypotheses, a state and operands that meet them. -/

namespace Sys2Proof.Machine.Tests
open Sys2Proof

set_option Elab.async false

/-! ### Small states -/

/-- No time. -/
def z : Elapsed := ⟨0, 0, 0, 0⟩

/-- Bytes from numbers. -/
def bs (l : List Nat) : List Byte := l.map (BitVec.ofNat 8)

/-- What a command leaves, looked at by `p`. -/
def ran (c : Instr) (s : State) (p : State → Bool) : Bool :=
  match exec c s with
  | .next t => p t
  | .fault _ => false
  | .refused _ => false

/-- The state a command leaves. -/
def left (c : Instr) (s : State) : Option State :=
  match exec c s with
  | .next t => some t
  | .fault _ => none
  | .refused _ => none

/-- A configuration: tag 7 in slot 5, founding and anchor enabled, every generator VIDEO at 25, the first bound. -/
def cfg : ConfigRecord := { ConfigRecord.blank with
  tag := 7, slot := 5, founding := true, quorum := 1, anchorEnabled := true, refEnable := true
  gens := Vector.replicate 4 ⟨true, .video, .v25, none, 0, .stop⟩, binding := some 0 }

/-- A station configured so, LOCKED on a HEALTHY XO, in state `st` with its clock at `ns`. -/
def at' (st : StationState) (ns : Option Nat) : State := { State.reset with
  port := { Port.reset with record := some cfg }
  peers := PeerTable.rebuilt 5 7
  timecode := { Timecode.reset with binding := some 0 }
  station := { Station.reset with
    state := st
    listenTimer := if st = .listen then some 1 else none
    lockTime := if st = .starting then some 0 else none }
  link := { Link.reset with mode := st.mode, furthest := ns }
  discipline := { Discipline.reset with clock := ns.map (· * unitsPerNs) }
  source := { SourceUnit.reset with
    xo := ⟨true, .healthy, 16, 0, 0, true⟩, ref := ⟨true, .healthy, 16, 0, 0, true⟩
    synth := .locked, lockSource := some .xo } }

/-- The start of round 100. -/
def r100 : Nat := 800000000

/-- A known peer with delay estimate 400. -/
def peer (tag : Nat) (st : EntryState) : PeerEntry :=
  { PeerEntry.empty with state := st, tag := some tag, peerState := some .agreed, delay := some 400, rawLag := some 400, lagAge := .zero }

/-- The state with an entry in a slot. -/
def State.entry (i : Fin 32) (p : PeerEntry) (s : State) : State :=
  s.setPeers { s.peers with entries := put s.peers.entries i p }

/-- A beacon of round 100. -/
def beacon (st : PeerState) (slot : Fin 32) (tag : Nat) : Beacon :=
  ⟨st, slot, tag, 100, 0, 0, none, none, []⟩

/-- The 8 µs that a frame takes from its timing mark to its end, on every clock. -/
def d8 : Elapsed := ⟨8000, 128, 200, 80⟩

/-- A station with its clock where the timing mark of a frame in the window of a slot of round 100 comes. -/
def marked (st : StationState) (slot : Nat) : State := at' st (some (r100 + slot * 250000 + 20400))

/-- The state with its clock valid, its anchor valid, a label change pending, and a generator in each state. -/
def carrying (s : State) : State := { s with
  discipline := { s.discipline with clock := some (r100 * unitsPerNs) }
  anchor := ⟨some 3, some 9, 4, true, 5, 0, some ⟨60, 5, .originated⟩, none⟩
  gens := tabulate 4 fun i => match i with
    | 0 => { Generator.reset with state := .running, next := some ⟨21, 840000000, 80000000⟩, pinHighUntil := some 9 }
    | 1 => { Generator.reset with state := .armed, next := some ⟨21, 840000000, 80000000⟩ }
    | 2 => { Generator.reset with state := .stopping, next := some ⟨21, 840000000, 80000000⟩ }
    | 3 => Generator.reset }

/-- The latest notice of its kind is pending. -/
def shows (t : State) (n : Notice) : Bool := (t.notices.records[n.kind]).map (·.detail) == some n

/-- What a state that was carrying a clock is left with when it loses it in STANDBY. -/
def lostClock (t : State) : Bool :=
  t.discipline.clock == none && t.gens.toList.map (·.state) == [.stopping, .off, .stopping, .off]
    && t.gens[0].pinHighUntil == some 9 && t.gens[1].next == none
    && t.anchor == ⟨some 3, none, 0, false, 0, 0, none, none⟩ && shows t (.anchorChanged false .clock)

/-- The state with early activation configured. -/
def early (s : State) : State := s.setPort { s.port with record := some { cfg with earlyActivation := true } }

/-- An 89-byte configuration record (R179): tag 1, slot 1, founding, quorum 2, the defaults, G0 VIDEO at 29.97, bound. -/
def cfgBytes : List Byte := bs
  ([0, 0, 0, 1, 1, 1, 2, 0x27, 0x10, 4, 0, 20, 0, 0, 0xC3, 0x50, 0, 0x98, 0x96, 0x80, 7, 16, 10, 1, 8]
    ++ [0x3B, 0x9A, 0xCA, 0x00, 0, 0, 0x27, 0x10, 0, 0, 0, 0, 1, 0, 1, 0]
    ++ [1, 1, 4, 0, 0, 0, 0, 0, 1] ++ [0, 1, 3, 0, 0, 0, 0, 0, 2] ++ [0, 1, 3, 0, 0, 0, 0, 0, 2] ++ [0, 1, 3, 0, 0, 0, 0, 0, 2]
    ++ [1] ++ [0x07, 0xFF, 0xFF, 0xFF] ++ [0xFF, 0xFF, 0xFF, 0xFF, 0xFF, 0xFF, 0xFC])

/-! ### Operands (WellFormed) -/

/-- A request with more parameter bytes than its length can count, for each host command. -/
theorem test_wf_params : paramsFit (List.replicate 65536 0#8) = false ∧ paramsFit (List.replicate 65535 0#8) = true := by
  constructor <;> (unfold paramsFit; rw [List.length_replicate]; decide)

/-- Each command that carries parameters checks them. -/
theorem test_wf_commands (ps : List Byte) (h : paramsFit ps = false) :
    [Instr.configure z ps, .join z ps, .withdraw z ps, .reset z ps, .seedTime z ps, .anchorLabel z ps, .labelChange z ps,
      .selectSource z ps, .resync z ps, .enableNotices z ps, .nextNotice z ps, .readStatus z ps, .readPeer z ps,
      .readGenerator z ps, .readTime z ps, .unknownCommand z 0 ps].all (fun c => !c.wf) = true := by
  simp [Instr.wf, h]

/-- A code that names a command is no UNKNOWN_COMMAND; 0 and 16 name none. -/
theorem test_wf_unknown : (Instr.unknownCommand z 15 []).wf = false ∧ (Instr.unknownCommand z 16 []).wf = true ∧
    (Instr.unknownCommand z 0 []).wf = true := by decide

/-- A timing mark lies at most a round back. -/
theorem test_wf_mark : sinceOk 8000000 = true ∧ sinceOk 8000001 = false ∧ (Instr.frameReceived z [] 8000001).wf = false ∧
    (Instr.frameReceived z [] 8000000).wf = true := by decide +kernel

/-! ### The manual's tables and worked examples -/

/-- R174 gives the check of the nine ASCII digits. -/
theorem test_crc : crc32 (bs [0x31, 0x32, 0x33, 0x34, 0x35, 0x36, 0x37, 0x38, 0x39]) = 0xFC891918#32 := by decide +kernel

/-- Sequence lengths of R133 and bounds of R137. -/
theorem test_rates : sequenceLength .a48k .v29 = 8008 ∧ sequenceLength .a48k .v25 = 1920 ∧
    RateCode.shortest .v29 = 16683334 ∧ RateCode.shortest .v60 = 8333334 ∧ RateCode.longest .v25 = 59999999 := by
  decide +kernel

/-- Chapter 4, trimming with n = 9 and n = 8. -/
theorem test_trimming : estimateOf [0, -620, 310, -40, 8900, 150, 90, -180, 2700] = 102 ∧
    spreadOf [0, -620, 310, -40, 8900, 150, 90, -180, 2700] = 350 ∧
    estimateOf [0, -620, 310, -40, 150, 90, -180, 2700] = 55 := by decide +kernel

/-- Chapter 9, drop-frame counts, and the word of R182 for 23:59:59;29 in hold. -/
theorem test_timecode : RateCode.number .v29 1800 = ⟨0, 1, 0, 2, true, false⟩ ∧
    RateCode.number .v29 17981 = ⟨0, 9, 59, 29, true, false⟩ ∧ RateCode.number .v29 2589407 = ⟨23, 59, 59, 29, true, false⟩ ∧
    RateCode.number .v29 2589408 = ⟨23, 59, 59, 29, true, true⟩ ∧ RateCode.number .film23 2071527 = ⟨23, 58, 33, 15, false, false⟩ ∧
    timecodeWord ⟨23, 59, 59, 29, true, true⟩ 0 = 0b10001110110011011001010100111000#32 := by decide +kernel

/-- Chapter 3: the samples and estimates of admission, and the deviation of round r + 5. -/
theorem test_samples :
    smoothDelay none 1200 = 1200 ∧ smoothDelay (some 1200) 1216 = 1202 ∧ smoothDelay (some 1202) 1198 = 1202 ∧
    smoothDelay (some 1202) 1210 = 1203 ∧ judge 10000 .agreed (some (-12440)) (some 1202) = (.wild, some 13642) := by decide +kernel

/-- Chapter 5: six agreement points, by integration and smoothed slew. -/
theorem test_discipline : integrated 1900 102 = 2099 ∧ integrated 2099 (-420) = 1279 ∧ integrated 1279 300 = 1864 ∧
    integrated 1864 640 = 3114 ∧ smoothedSlew 7 10 102 = 25 ∧ smoothedSlew 7 10 (-420) = -80 := by decide +kernel

/-- Chapter 6: the steering term of three anchor offsets, and of four that are split. -/
theorem test_steering : steering 10000 1000000000 8 [2510, 2300, 2420] = (8, []) ∧
    steering 10000 1000000000 8 [2510, 2300, 2420, 14000] = (0, [.anchorsSplit 4 11700]) := by decide +kernel

/-- Chapter 1: the echo walk of rounds n + 1 and n + 2. -/
theorem test_echo_walk :
    let t : PeerTable := ⟨tabulate 32 fun i =>
      if i.val ∈ [0, 1, 2, 3, 7, 9, 12, 14, 18, 20, 25, 30] then peer (100 + i.val) .counted else PeerEntry.empty, 0⟩
    ((t.selectEchoes 31).map (·.slot) = [0, 1, 2, 3, 7, 9, 12, 14] ∧ pointerAfter 31 (t.selectEchoes 31) = 15) ∧
    ((t.selectEchoes 15).map (·.slot) = [18, 20, 25, 30, 0, 1, 2, 3] ∧ pointerAfter 15 (t.selectEchoes 15) = 4) := by
  decide +kernel

/-- Chapter 8: the rephase of G0, code 4, finds frame a + 3 with a frame of 33,246,667 ns. -/
theorem test_rephase : let g : GenSettings := ⟨true, .video, .v29, none, 0, .hold⟩
    let a := 50949050400
    let m := g.rephased 0 ⟨a + 2, 0, 0⟩ (1699999981680000000 + 66853333)
    m.number = a + 2 ∧ m.nextNumber = a + 3 ∧ m.length = 33246667 ∧ m.rephase = some 0 := by decide +kernel

/-- The record of R179 passes every check of R162, and reads as it was written. -/
theorem test_config : firstFailure (configChecks cfgBytes) = none ∧ (parseConfig cfgBytes).tag = 1 ∧
    (parseConfig cfgBytes).slewLimit = 10 ∧ (parseConfig cfgBytes).gens[0].rate = .v29 ∧
    (parseConfig cfgBytes).noticePriorities = Vector.replicate 27 3 := by decide +kernel

/-- The record of R179 lies in the ranges of R162, and the settings of each generator are those of its nine bytes. -/
theorem test_config_fits : ConfigFits cfgBytes := by
  simp only [ConfigFits, configRanges, genRanges, List.cons_append, List.nil_append, List.forall_mem_cons]
  iterate 48 refine ⟨by decide +kernel, ?_⟩
  exact fun _ h => absurd h List.not_mem_nil

/-- A record of zeros fails at field 1, one with bits below the last priority at field 48, a binding to an AUDIO or to a fifth
generator at field 46, and a preferred source that is not enabled at field 20. -/
theorem test_config_fails : ConfigFailsAt (bs (List.replicate 89 0)) 1 ∧ ConfigFailsAt (cfgBytes.set 88 0xFF) 48 ∧
    ConfigFailsAt (cfgBytes.set 77 5) 46 ∧ ConfigFailsAt (cfgBytes.set 39 2) 20 := by
  simp only [ConfigFailsAt, configRanges, genRanges, List.cons_append, List.nil_append, List.forall_mem_cons, List.exists_mem_cons_iff]
  refine ⟨⟨?_, ?_⟩, ⟨?_, ?_⟩, ⟨?_, ?_⟩, ⟨?_, ?_⟩⟩
  all_goals first
    | (iterate 48 refine ⟨by decide +kernel, ?_⟩); exact fun _ h => absurd h List.not_mem_nil
    | repeat' (first | exact Or.inl (by decide +kernel) | apply Or.inr)

/-- A beacon with every optional part is read back from its bytes. -/
theorem test_beacon_bytes :
    let b : Beacon := ⟨.isolated, 31, 4294967295, 2 ^ 48 - 1, 31, -86400, some (-2147483648), some ⟨86400, 2 ^ 48 - 1⟩,
      [⟨0, 2147483647, 1⟩, ⟨30, -1, 0⟩]⟩
    parseBeacon b.bytes = some b ∧ b.bytes.length = 47 := by decide +kernel


/-- R157, R182: a word leaves bit 31 first, 500 half ns a bit, and the line is low before and after it. -/
theorem test_timecode_line : let c : Timecode := ⟨some 0, none, false, some ⟨0b10000000000000000000000000000001#32, 16100⟩⟩
    [100, 599, 600, 15599, 15600, 16099, 16100].map c.level = [true, true, false, false, true, true, false] ∧
    Timecode.reset.level 5 = false := by decide +kernel

/-- R159, R177: what a request asks for, and the fill value before, in and past the response. -/
theorem test_port : requestInstr z (bs [0x0D, 0, 1, 9, 7]) = .readPeer z (bs [9]) ∧ requestInstr z (bs [0, 0, 0]) = .unknownCommand z 0 [] ∧
    requestInstr z (bs [0x0D, 0, 1]) = .transactionAbandoned z ∧ requestInstr z (bs [0x10, 0, 0]) = .unknownCommand z 0x10 [] ∧
    (let p : Port := { Port.reset with response := bs [0, 0, 0, 1, 9] };
      (List.range 10).map (p.sends 4) = bs [255, 255, 255, 255, 0, 0, 0, 1, 9, 255]) := by decide +kernel

/-! ### States and operands that meet the hypotheses of the statements -/

/-- FrontCommandRuns. -/
theorem test_FrontCommandRuns : (State.reset.withPending [.resync z []]).pending = [.resync z []] ∧ State.reset.pending = [] ∧
    (match step (State.reset.withPending [.reset z []]) with
      | .next t => t.pending == [] && t.port.resetTaken
      | _ => false) = true := by decide +kernel

/-- StationResetValues: a configured and an unconfigured station, each way of its conditions: the failover to REF, both
sources UNHEALTHY, and the lock of early activation on a source that is not. -/
theorem test_StationResetValues : let s := at' .agreed (some r100)
    let after := fun (early : Bool) (xo ref : Health) (p : State → Bool) =>
      ran (.stationReset z true) ((s.setPort { s.port with record := some { cfg with earlyActivation := early } }).setSource
        { s.source with xo := ⟨true, xo, 0, 0, 0, true⟩, ref := ⟨true, ref, 0, 0, 0, true⟩ }) p
    s.configured = true ∧ State.reset.configured = false ∧
    s.source.xo.enabled = s.config.xoEnable ∧ s.source.ref.enabled = s.config.refEnable ∧ s.config.earlyActivation = false ∧
    after false .healthy .healthy (fun t => t.station.state == .standby && t.link.echoPointer == 6 && t.port.filling
      && t.source.synth == .off && t.source.selected == .xo) = true ∧
    after true .unhealthy .healthy (fun t => t.source.selected == .ref && t.source.lockSource == some .ref) = true ∧
    after true .unhealthy .unhealthy (fun t => t.source.selected == .xo && t.source.synth == .off) = true ∧
    after true .learning .healthy (fun t => t.source.synth == .locking && t.source.unitTimer == some 0) = true ∧
    ran (.stationReset z false) State.reset (fun t => t.link.echoPointer == 0) = true := by
  decide +kernel

/-- RefusedCommandChangesNothing: each command refused somewhere. -/
theorem test_RefusedCommandChangesNothing : let s := State.reset.request z
    s.refuseConfigure [] = some (.refusedValue 0) ∧ s.refuseJoin [] = some .refusedState ∧
    s.refuseWithdraw [] = some .refusedState ∧ s.refuseSeed [] = some (.refusedValue 0) ∧
    s.refuseLabel (bs [0, 0, 0, 0, 0, 9]) = some .refusedState ∧ s.refuseChange [] = some (.refusedValue 0) ∧
    s.refuseSelect (bs [3]) = some (.refusedValue 1) ∧ s.refuseResync [] = some .refusedState ∧
    refuseEnables (bs [8, 0, 0, 0, 0, 0, 0, 0]) = some (.refusedValue 1) ∧ refusePlace 32 (bs [32]) = some (.refusedValue 1) ∧
    refusePlace 4 (bs [4]) = some (.refusedValue 1) := by decide +kernel

/-- ChecksComeInOrder: a wrong length, a wrong state, a wrong field, and a source that the synthesizer uses. -/
theorem test_ChecksComeInOrder : (0 * 256 + 1 = (bs [9]).length ∧ (0x0F#8 : Byte).toNat = 15 ∧ 15 < (0x10#8 : Byte).toNat) ∧
    (bs [1, 0]).length < 3 ∧ ([] : List Byte).length ≠ 89 ∧ cfgBytes.length = 89 ∧
    ((at' .joining (some r100)).request z).station.state ≠ .standby ∧
    (State.reset.request z).station.state = .standby ∧ (State.reset.request z).configured = false ∧
    (bs (List.replicate 89 0)).length = 89 ∧ natAt (bs [255, 255, 255, 255, 255, 255, 0x3B, 0x9A, 0xCA, 0]) 6 4 = 1000000000 ∧
    intAt (bs [0, 1, 0x51, 0x81, 0, 0, 0, 0, 0, 0]) 0 4 = 86401 ∧ intAt (bs [0xFF, 0xFE, 0xAE, 0x7F, 0, 0, 0, 0, 0, 0]) 0 4 = -86401 ∧
    natAt (bs [7, 255, 255, 255, 8, 0, 0, 0]) 0 4 < 2 ^ 27 ∧ natAt (bs [7, 255, 255, 255, 8, 0, 0, 0]) 4 4 = 2 ^ 27 ∧
    [.refusedValue 1, .refusedValue 20, .refusedValue 46, .refusedValue 48].map some =
      [bs (List.replicate 89 0), cfgBytes.set 39 2, cfgBytes.set 77 5, cfgBytes.set 88 0xFF].map
        (State.reset.request z).refuseConfigure ∧
    (let s := at' .standby none;
      let q := (s.setSource { s.source with lockSource := some .ref, selected := .ref }).request z
      q.source.synth ≠ .off ∧ q.source.lockSource = some .ref ∧ natAt cfgBytes 38 1 = 0 ∧
        q.refuseConfigure cfgBytes = some .refusedSource) := by decide +kernel

/-- ConfigureTaken: on a new station, and on one whose synthesizer is LOCKED on XO, its clock valid, its generators in each
state and its anchor valid; the record enables XO alone (test_config_fits). -/
theorem test_ConfigureTaken : let s := at' .standby (some r100)
    let g := fun (st : GenState) => ({ Generator.reset with state := st, rephaseCount := 3, pinHighUntil := some 9 } : Generator)
    let v := (s.setGens (tabulate 4 fun i => match i with
      | 0 => g .running | 1 => g .armed | 2 => g .stopping | 3 => g .off)).setAnchor { s.anchor with offset := some 1, valid := true }
    cfgBytes.length = 89 ∧ (v.request z).station.state = .standby ∧
    (v.request z).source.lockSource = some .xo ∧ natAt cfgBytes 37 1 = 1 ∧
    ran (.configure z cfgBytes) State.reset (fun t =>
      t.configured && t.link.echoPointer == 2 && t.peers.entries[1] == PeerEntry.own 1 && t.timecode.binding == some 0) = true ∧
    ran (.configure z cfgBytes) v (fun t =>
      t.reading == some r100 && t.source.synth == .locked && t.source.ref.health == .disabled
        && t.gens[0].state == .stopping && t.gens[0].pinHighUntil == some 9 && t.gens[1].state == .off
        && t.gens[1].pinHighUntil == none && t.gens[0].rephaseCount == 0 && t.notices.records[17].isSome && !t.anchor.valid) = true ∧
    ran (.configure z cfgBytes) (v.setSource { v.source with xo := ⟨true, .unhealthy, 0, 2, 0, true⟩ }) (fun t =>
      t.reading == none && t.source.synth == .off && t.source.selected == .xo) = true := by
  decide +kernel

/-- The record that enables both sources and prefers REF fits. -/
theorem test_config_fits_ref : ConfigFits ((cfgBytes.set 38 1).set 39 2) := by
  simp only [ConfigFits, configRanges, genRanges, List.cons_append, List.nil_append, List.forall_mem_cons]
  iterate 48 refine ⟨by decide +kernel, ?_⟩
  exact fun _ h => absurd h List.not_mem_nil

/-- ConfigureTaken: a lock and a relock that run on, and that start again on REF. -/
theorem test_ConfigureTaken_locks :
    let s := fun (synth : SynthState) (timer : Option Nat) => let a := at' .standby (some r100);
      a.setSource { a.source with synth := synth, lockCount := 9, unitTimer := timer, coasting := synth == .relocking }
    let ref := (cfgBytes.set 38 1).set 39 2
    ((s .locking none).request z).source.lockSource = some .xo ∧ natAt ref 37 1 = 1 ∧
    ran (.configure z cfgBytes) (s .locking (some 7)) (fun t => t.source.synth == .locking && t.source.lockCount == 9
      && t.source.unitTimer == some 7) = true ∧
    ran (.configure z cfgBytes) (s .relocking (some 7)) (fun t => t.source.synth == .relocking && t.source.lockCount == 9
      && t.source.coasting) = true ∧
    ran (.configure z ref) (s .locking (some 7)) (fun t => t.source.lockSource == some .ref && t.source.synth == .locking
      && t.source.lockCount == 0 && t.source.unitTimer == some 0) = true ∧
    ran (.configure z ref) (s .relocking (some 7)) (fun t => t.source.lockSource == some .ref && t.source.synth == .relocking
      && t.source.lockCount == 0 && t.source.unitTimer == some 0 && t.source.coasting) = true := by decide +kernel

/-- JoinMovesOn: LOCKED, not LOCKED with and without a source loss, and refused. -/
theorem test_JoinMovesOn : let s := at' .standby none
    let off := s.setSource SourceUnit.reset
    let bad := s.setSource { SourceUnit.reset with xo := ⟨true, .unhealthy, 0, 2, 0, true⟩ }
    ((s.request z).station.state = .standby ∧ (s.request z).configured = true ∧ (s.request z).source.synth = .locked) ∧
    ((off.request z).source.synth = .off ∧ (off.request z).source.lost = false) ∧
    ((bad.request z).source.synth ≠ .locked ∧ (bad.request z).source.lost = true) ∧
    (State.reset.request z).configured = false ∧
    ran (.join z []) s (fun t => t.station.state == .listen && t.station.listenTimer == some 9) = true ∧
    ran (.join z []) off (fun t => t.station.state == .starting && t.source.synth == .locking) = true ∧
    ran (.join z []) bad (fun t => t.station.state == .stalled) = true := by decide +kernel

/-- JoinMovesOn: a lock and a relock begun in STANDBY go on. -/
theorem test_JoinMovesOn_locks :
    let s := fun (synth : SynthState) => let a := at' .standby (some r100);
      a.setSource { a.source with synth := synth, lockCount := 9, unitTimer := some 7, coasting := synth == .relocking }
    (((s .locking).request z).source.synth = .locking ∧ ((s .locking).request z).source.lost = false) ∧
    (((s .relocking).request z).source.synth = .relocking ∧ ((s .relocking).request z).source.lost = false) ∧
    ran (.join z []) (s .locking) (fun t => t.station.state == .starting && t.source.synth == .locking && t.source.unitTimer == none
      && t.source.lockCount == 9) = true ∧
    ran (.join z []) (s .relocking) (fun t => t.source.synth == .relocking && t.source.unitTimer == some 7 && t.source.coasting
      && t.reading == some r100) = true := by decide +kernel

/-- WithdrawByState: a state of each kind, and STARTING in a lock of its own. -/
theorem test_WithdrawByState : let s := at' .starting none
    ran (.withdraw z []) (at' .agreed (some r100)) (fun t => t.station.state == .withdrawing) = true ∧
    ((s.request z).station.state = .starting ∧ (s.request z).config.earlyActivation = false ∧
      (s.request z).clockValid = false) ∧
    ran (.withdraw z []) s (fun t => t.station.state == .standby && t.source.synth == .off) = true ∧
    ran (.withdraw z []) (at' .withdrawing (some r100)) (fun t => t.port.response == bs [1, 0, 0, 0]) = true := by
  decide +kernel

/-- WithdrawByState: a relock carried into STARTING is abandoned with its clock; without one the clock calls for a lock, as
early activation does, unless the source is UNHEALTHY; from LISTEN the synthesizer runs on or stops, and a relock of LISTEN
is abandoned as one of STARTING is. -/
theorem test_WithdrawByState_locks :
    let s := fun (st : StationState) (synth : SynthState) => let a := at' st none;
      a.setSource { a.source with synth := synth, lockCount := 9, unitTimer := some 7, coasting := synth == .relocking }
    let relock := carrying (s .starting .relocking)
    let bad := fun (u : State) => u.setSource { u.source with xo := ⟨true, .unhealthy, 0, 2, 0, true⟩ }
    let begun := fun (t : State) => t.source.synth == .locking && t.source.lockSource == some .xo && t.source.lockCount == 0
      && t.source.unitTimer == some 0 && !t.source.coasting
    ((relock.request z).station.state = .starting ∧ (relock.request z).source.synth = .relocking ∧
      (relock.request z).discipline.clock.isSome = true) ∧
    ran (.withdraw z []) relock (fun t => lostClock t && t.source.synth == .off && t.source.lockCount == 9 && !t.source.coasting) = true ∧
    ran (.withdraw z []) (early relock) (fun t => lostClock t && begun t) = true ∧
    ran (.withdraw z []) (bad (early relock)) (fun t => lostClock t && t.source.synth == .off) = true ∧
    ran (.withdraw z []) (carrying (s .starting .locking)) (fun t => t.reading == some r100 && t.anchor.valid && begun t) = true ∧
    ran (.withdraw z []) (carrying (s .listen .locked)) (fun t => t.reading == some r100 && t.source.synth == .locked) = true ∧
    ran (.withdraw z []) (s .listen .locked) (fun t => t.source.synth == .off && t.source.unitTimer == none) = true ∧
    ran (.withdraw z []) (early (s .stalled .off)) begun = true ∧
    (let listening := carrying (s .listen .relocking);
      ((listening.request z).station.state = .listen ∧ (listening.request z).source.synth = .relocking ∧
        (listening.request z).discipline.clock.isSome = true) ∧
      ran (.withdraw z []) listening (fun t => lostClock t && t.source.synth == .off && !t.source.coasting) = true ∧
      ran (.withdraw z []) (early listening) (fun t => lostClock t && begun t) = true ∧
      ran (.withdraw z []) (bad (early listening)) (fun t => lostClock t && t.source.synth == .off) = true ∧
      ran (.withdraw z []) (early (s .listen .relocking)) begun = true ∧
      ran (.withdraw z []) (s .listen .relocking) (fun t => t.source.synth == .off && !t.source.coasting) = true) := by
  decide +kernel

/-- ResetComesWithTheEnd: RESET taken, and the transaction after it. -/
theorem test_ResetComesWithTheEnd : let s := (at' .agreed (some r100)).setPort { Port.reset with record := some cfg, resetTaken := true }
    s.port.resetTaken = true ∧ State.reset.port.resetTaken = false ∧
    ran (.readStatus z []) s (fun t => t.station.state == .standby && t.station.faultReason == .reset) = true := by
  decide +kernel

/-- SeedLabelAndResyncTaken: nanoseconds at their last value and one beyond, an anchored station and one that is not. -/
theorem test_SeedLabelAndResyncTaken :
    (let ps := bs [0, 0, 0, 0, 0, 9, 0x3B, 0x9A, 0xC9, 0xFF];
      ps.length = 10 ∧ natAt ps 6 4 < 1000000000 ∧ ran (.seedTime z ps) State.reset (fun t => t.seeded) = true) ∧
    (let ps := bs [0, 0, 0, 0, 0, 9, 0x3B, 0x9A, 0xCA, 0x00];
      ps.length = 10 ∧ 1000000000 ≤ natAt ps 6 4 ∧
        ran (.seedTime z ps) State.reset (fun t => t.port.response == bs [2, 2, 0, 0]) = true) ∧
    ran (.anchorLabel z (bs [0, 0, 0, 0, 1, 0])) (at' .agreed (some r100)) (fun t => t.anchor.label == some 256) = true ∧
    (State.reset.request z).configured = false ∧
    ran (.resync z []) (at' .isolated (some r100)) (fun t => t.discipline.restart == 16) = true ∧
    ran (.resync z []) (at' .founding (some r100)) (fun t => t.port.response == bs [1, 0, 0, 0]) = true := by
  decide +kernel

/-- Parameters of LABEL_CHANGE. -/
def change (offset : Int) (second : Nat) : List Byte := signedField 4 offset ++ field 6 second

/-- LabelChangeTested, at each bound: the offsets 86,400 and 86,401 and their negatives, the seconds 1 and 2 ahead. -/
theorem test_LabelChangeTested : let s := at' .agreed (some 800000000000)
    let answers := fun ps (r : List Nat) (u : State) => ran (.labelChange z ps) u fun t => t.port.response == bs r
    (s.request z).reading = some 800000000000 ∧ (change 86400 802).length = 10 ∧
    answers (change 86400 802) [0, 0, 0, 0] s = true ∧ answers (change (-86400) 802) [0, 0, 0, 0] s = true ∧
    answers (change 86401 802) [2, 1, 0, 0] s = true ∧ answers (change (-86401) 802) [2, 1, 0, 0] s = true ∧
    answers (change 0 801) [2, 2, 0, 0] s = true ∧
    answers (change 0 801) [4, 0, 0, 0] (s.setAnchor { s.anchor with change := some ⟨0, 900, .originated⟩ }) = true ∧
    answers (change 0 802) [1, 0, 0, 0] (at' .isolated (some 800000000000)) = true := by decide +kernel

/-- LabelChangeTested: notices of contributors, set aside, adopted with and without delay, the same again, another, and two. -/
theorem test_LabelChangeTested_notices : let offer := fun (i : Fin 32) (n : LabelNotice) (s : State) => State.entry i { peer (20 + i.val) .counted with
        anchored := true, anchorOffset := some 5, notice := some n, resultObservation := .good, resultDeviation := some 3 } s
    let s := at' .agreed (some 800000000000)
    let seen := fun (u : State) => (u.examineLabels u.contributors).anchor.change
    let holding := fun (c : LabelChange) => s.setAnchor { s.anchor with change := some c }
    (offer 9 ⟨60, 801⟩ (offer 12 ⟨60, 801⟩ s)).contributors = [9, 12] ∧
    seen (offer 9 ⟨0, 800⟩ s) = none ∧
    seen (offer 9 ⟨60, 801⟩ (offer 12 ⟨60, 801⟩ s)) = some ⟨60, 801, .adopted 9⟩ ∧
    ((offer 9 ⟨60, 800⟩ s).examineLabels [9]).anchor.labelOffset = 60 ∧
    (let u := offer 9 ⟨60, 801⟩ (holding ⟨60, 801, .originated⟩); u.examineLabels [9] = u) ∧
    (let t := (offer 9 ⟨60, 802⟩ (holding ⟨60, 801, .originated⟩)).examineLabels [9];
      t.anchor.change = none ∧ t.notices.records[23].map (·.detail) = some (.labelConflict 1 (some ⟨60, 801, .originated⟩))) ∧
    (let t := (offer 9 ⟨60, 801⟩ (offer 12 ⟨61, 801⟩ s)).examineLabels [9, 12];
      t.anchor.change = none ∧ t.notices.records[23].map (·.detail) = some (.labelConflict 2 none)) ∧
    (s.contributors.length < s.config.quorum ∧ s.station.state = .agreed) := by decide +kernel

/-- SelectSourceTested: bytes 0 to 3, and each state of the synthesizer. -/
theorem test_SelectSourceTested : let s := at' .agreed (some r100)
    let other := fun (u : SourceUnit) => ran (.selectSource z (bs [2])) (s.setSource u)
      fun t => t.source.selected == .ref && t.port.response == bs [0, 0, 0, 0]
    (parseSource 0 = none ∧ parseSource 1 = some .xo ∧ parseSource 2 = some .ref ∧ parseSource 3 = none) ∧
    ran (.selectSource z (bs [2])) State.reset (fun t => t.port.response == bs [3, 0, 0, 0]) = true ∧
    s.source.lockSource ≠ some .ref ∧ other s.source = true ∧ other { s.source with synth := .off, lockSource := none } = true ∧
    other { s.source with synth := .locking } = true ∧
    ran (.selectSource z (bs [2])) (s.setSource { s.source with synth := .locking, unitTimer := some 9 })
      (fun t => t.source.unitTimer == some 0) = true ∧ other { s.source with synth := .relocking, coasting := true } = true := by
  decide +kernel

/-- EnablesTakeMaskedValues: the highest mask and values that pass. -/
theorem test_EnablesTakeMaskedValues : let ps := bs [7, 255, 255, 255, 7, 255, 255, 254]
    ps.length = 8 ∧ natAt ps 0 4 < 2 ^ 27 ∧ natAt ps 4 4 < 2 ^ 27 ∧
    ran (.enableNotices z ps) State.reset (fun t => t.notices.records[0].isNone && !t.notices.enables[0]) = true := by
  decide +kernel

/-- NextNoticeTakesHighest: none pending, and of three the second of equal priority passed over. -/
theorem test_NextNoticeTakesHighest :
    let u : NoticeUnit := ⟨((Vector.replicate 27 none).set 3 (some ⟨0, none, .sourceRestored .xo true⟩)).set 26 (some ⟨2, some 5, .noSeed⟩)
        |>.set 25 (some ⟨0, none, .alone⟩), Vector.replicate 27 true, (Vector.replicate 27 3).set 25 1 |>.set 26 1⟩
    let s := State.reset.setNotices u
    (∀ k : Fin 27, ((State.reset.setNotices { u with records := Vector.replicate 27 none }).request z).notices.records[k] = none) ∧
    (s.request z).notices.records[(25 : Fin 27)] = some ⟨0, none, .alone⟩ ∧
    (∀ j : Fin 27, ((s.request z).notices.records[j]).isSome = true → j ≠ 25 →
      u.priorities[(25 : Fin 27)] < u.priorities[j] ∨ (u.priorities[(25 : Fin 27)] = u.priorities[j] ∧ 25 < j)) ∧
    ran (.nextNotice z []) s (fun t => t.notices.records[25].isNone && t.port.response.length == 29) = true := by
  decide +kernel

/-- SnapshotsRead: the first bytes that name no entry and no generator, and a byte of the port before, in and past a response. -/
theorem test_SnapshotsRead : 32 ≤ (32#8 : Byte).toNat ∧ 4 ≤ (4#8 : Byte).toNat ∧
    (0 < 4 ∧ 4 + ([] : List Byte).length ≤ 4 ∧ Port.reset.filling = false ∧ 0 < (bs [0]).length) ∧
    ran (.readPeer z (bs [31])) (at' .agreed (some r100)) (fun t => t.port.response.length == 66) = true ∧
    ran (.readGenerator z (bs [3])) (at' .agreed (some r100)) (fun t => t.port.response.length == 32) = true ∧
    ran (.readTime z []) (at' .agreed (some r100)) (fun t => t.port.latchedTime == some r100) = true := by decide +kernel

/-- A station with a value of its own in every item of the status snapshot. -/
def rich : State :=
  let s := State.entry 9 (peer 33 .counted) (State.entry 3 (peer 34 .heard) (State.entry 4 (peer 35 .heard) (at' .isolated (some 812345678901234567))))
  { s with
    station := { s.station with faultReason := .cause .merge, seed := some ⟨1, 2, 3⟩ }
    agreement := ⟨some (-70000), some 4000000000, 5, 2⟩
    discipline := { s.discipline with rate := -1234, band := 3, restart := 9 }
    anchor := ⟨none, some (-5), 3, true, 0, -60, some ⟨3600, 1099511627781, .adopted 4⟩, none⟩
    source := { s.source with selected := .ref, ref := ⟨true, .unhealthy, 0, 2, 0, true⟩, synth := .relocking, coasting := true }
    gens := tabulate 4 fun i => { Generator.reset with state := match i with | 0 => .stopping | 1 => .running | 2 => .armed | 3 => .off } }

/-- The status snapshot and READ_TIME show every item at its place. -/
theorem test_status_snapshot : StatusShows rich rich.statusSnapshot ∧ TimeShows rich rich.timeData := by
  refine ⟨?_, ?_⟩ <;> constructor <;> (try simp only [Shows, ShowsInt, ShowsTime, ShowsChange]) <;> decide +kernel

/-- The peer snapshot shows every item at its place. -/
theorem test_peer_snapshot : let p : PeerEntry := ⟨.excluded, some 4000000000, some .withdrawing, some 31, .wild, some (-123456789012), .absent,
      some 98765432109, some (-7), .one, some 4999, 256, 255, 254, 253, true, some (-2147483648), some (-86400), some ⟨86400, 281474976710655⟩⟩
    PeerShows 31 p (p.snapshot 31) ∧ PeerShows 7 PeerEntry.empty (PeerEntry.empty.snapshot 7) := by
  refine ⟨?_, ?_⟩ <;> constructor <;> (try simp only [Shows, ShowsInt]) <;> decide +kernel

/-- The generator snapshot shows every item at its place. -/
theorem test_generator_snapshot : let g : Generator := ⟨.stopping, some 1, some 2, none, true, 65535,
      some ⟨1234567890123456789, 812345678901234567, .running, true, some 0x8ECD953A⟩, none, none⟩
    GeneratorShows 2 g (g.snapshot 2) ∧ GeneratorShows 3 Generator.reset (Generator.reset.snapshot 3) := by
  refine ⟨?_, ?_⟩ <;> constructor <;> (try simp only [Shows, ShowsTime]) <;> decide +kernel

/-- A record of each kind of notice. -/
def records : List PendingRecord :=
  ([.restarted true, .stateChanged .listen .yielded, .sourceFailed .ref .lock .unselected, .sourceRestored .xo true, .lockFailed .ref,
    .slotConflict 30 (some 4000000000), .stepped .founding (-9000000000), .merged 6 5, .rephased 3 (-70000) true, .peerAdmitted 9 77,
    .peerExcluded 10 78, .peerLost 11 79, .peerLeft 12 80, .tagClash 13, .delayRange 14 (-5001), .rateBand 3 true, .rateLimit (-100000),
    .anchorChanged true .configure, .anchorUnlabelled 5000000006, .anchorsSplit 4 18000000000000000000, .anchorsFar (-1000000001),
    .labelPending ⟨-60, 99, .adopted 21⟩, .labelApplied 60 98, .labelConflict 2 (some ⟨61, 97, .originated⟩), .timecodeHeld 1 2589408,
    .alone, .noSeed] : List Notice).map fun n => ⟨200, some 812345678901234567, n⟩

/-- The notice record of each kind shows every item at its place. -/
theorem test_notice_records : records.map (·.detail.kind.val) = List.range 27 ∧ ∀ r ∈ records, RecordShows r r.bytes := by
  refine ⟨by decide, ?_⟩
  simp only [records, List.map_cons, List.map_nil, List.forall_mem_cons]
  refine ⟨?_, ?_, ?_, ?_, ?_, ?_, ?_, ?_, ?_, ?_, ?_, ?_, ?_, ?_, ?_, ?_, ?_, ?_, ?_, ?_, ?_, ?_, ?_, ?_, ?_, ?_, ?_, by simp⟩ <;>
    constructor <;> (try simp only [Shows, ShowsInt, ShowsTime, ShowsChange, DetailShows]) <;> decide +kernel

/-- OccurrencesMerge: a kind not enabled, a kind with no record, and one with a record at its last repeat count. -/
theorem test_OccurrencesMerge :
    (let s := State.reset.setNotices { State.reset.notices with enables := Vector.replicate 27 false };
      s.notices.enables[(Notice.alone).kind] = false ∧ s.raise .alone = s) ∧
    (State.reset.notices.enables[(Notice.alone).kind] = true ∧ State.reset.notices.records[(Notice.alone).kind] = none) ∧
    (let s := State.reset.setNotices { State.reset.notices with records := Vector.replicate 27 (some ⟨255, none, .alone⟩) };
      s.notices.records[(Notice.alone).kind] = some ⟨255, none, .alone⟩ ∧
      (s.raise .alone).notices.records[(25 : Fin 27)] = some ⟨255, none, .alone⟩) := by decide +kernel

/-! #### The timing line -/

/-- The hypotheses on a good beacon in the window of its slot that most line statements share, its mark `since` ns back. -/
def goodIn (dt : Elapsed) (since : Nat) (b : Beacon) (s : State) : Bool :=
  let u := s.elapse dt
  let m := u.markAt since
  match m.agreed with
  | some a =>
    parseBeacon b.bytes == some b && !m.coasting && u.link.mode != .off && m.mode == .windowed && slotOf a != u.config.slot
      && b.slot == slotOf a && b.tag != u.config.tag && decide (∀ i : Fin 32, i ≠ b.slot → (u.peers.entries[i]).tag ≠ some b.tag)
      && !u.link.arrivals[b.slot]
  | none => false

/-- The hypotheses on a frame in OPEN mode. -/
def openIn (dt : Elapsed) (since : Nat) (b : Beacon) (s : State) : Bool :=
  let u := s.elapse dt
  let m := u.markAt since
  parseBeacon b.bytes == some b && !m.coasting && u.link.mode != .off && m.mode == .openMode

/-- What a timing mark took: at the instant, 8 µs back, and beyond what is remembered. -/
theorem test_marks : let s := marked .agreed 9
    s.markAt 0 = ⟨.windowed, false, some (r100 + 2270400), 0⟩ ∧
    ((s.elapse d8).elapse d8).markAt 8000 = ⟨.windowed, false, some (r100 + 2278400), 8000⟩ ∧
    ((s.elapse d8).elapse d8).markAt 16000 = ⟨.windowed, false, some (r100 + 2270400), 16000⟩ ∧
    ((s.elapse d8).markAt 8001).mode = .off := by decide +kernel

/-- DiscardedFramesChangeNothing: each way a frame is discarded, the last a frame that was being received when WITHDRAW came. -/
theorem test_DiscardedFramesChangeNothing : let s := marked .agreed 9
    let b := beacon .agreed 9 33
    let coast := s.setSource { s.source with coasting := true }
    (((coast.elapse d8).markAt 8000).coasting = true ∧ ((at' .standby none).elapse z).link.mode = .off) ∧
    ((((at' .listen none).elapse d8).markAt 8000).mode = .openMode ∧ parseBeacon [] = none) ∧
    (((s.elapse d8).markAt 8000).mode = .windowed ∧ ((s.elapse d8).markAt 8000).agreed = some (r100 + 2270400) ∧
      slotOf (r100 + 2270400) = 9 ∧ slotOf (r100 + 2270400) ≠ (s.elapse d8).config.slot) ∧
    ((beacon .agreed 10 33).slot ≠ slotOf (r100 + 2270400) ∧
      parseBeacon (beacon .agreed 10 33).bytes = some (beacon .agreed 10 33)) ∧
    (goodIn d8 8000 b s = true ∧ ((s.noteArrival 9).elapse d8).link.arrivals[(9 : Fin 32)] = true ∧
      left (.frameReceived d8 b.bytes 8000) (s.noteArrival 9) = some ((s.noteArrival 9).elapse d8)) ∧
    (((marked .listen 9).request d8).station.state = .listen ∧
      ran (.withdraw d8 []) (marked .listen 9) (fun t => ran (.join z []) t fun v =>
        decide ((v.elapse z).synthTime < t.synthTime + 2 * 8000) && left (.frameReceived z b.bytes 8000) v == some (v.elapse z)
          && v.station.state == .listen) = true) := by decide +kernel

/-- DamagedFramesFound: a frame spoiled in each field. -/
theorem test_DamagedFramesFound : let b := (beacon .agreed 9 33).bytes
    let with' := fun (i n : Nat) => b.set i (BitVec.ofNat 8 n)
    let full := ({ beacon .agreed 9 33 with notice := some ⟨60, 9⟩, echoes := [⟨3, 7, 0⟩, ⟨4, 8, 1⟩] } : Beacon).bytes
    let sealed := fun (i n : Nat) =>
      let l := (full.take (full.length - 4)).set i (BitVec.ofNat 8 n)
      l ++ field 4 (crc32 l).toNat
    natAt (with' 22 0) 19 4 ≠ (crc32 ((with' 22 0).take 19)).toNat ∧ (b ++ b).length ≠ 19 + 0 + 0 + 5 * 0 + 4 ∧
    77 < (List.replicate 78 (0#8 : Byte)).length ∧ natAt (with' 0 2) 0 1 ≠ 1 ∧ natAt (with' 1 2) 1 1 < 3 ∧ 7 < natAt (with' 1 8) 1 1 ∧
    31 < natAt (with' 2 32) 2 1 ∧ natAt (with' 7 0) 4 4 = 0 ∧ 31 < natAt (with' 14 32) 14 1 ∧
    86400 < intAt (with' 16 2) 15 4 ∧ intAt (with' 15 255) 15 4 < -86400 ∧ 8 < natAt (with' 3 144) 3 1 / 16 ∧
    ((natAt full 3 1).testBit 1 = true ∧ 86400 < intAt (sealed 20 2) 19 4 ∧ natAt full 3 1 / 16 = 2 ∧ natAt full 29 1 % 64 = 3 ∧
      natAt full 34 1 / 64 = 1) ∧
    [with' 22 0, b ++ b, with' 0 2, with' 1 2, with' 1 8, with' 2 32, with' 14 32, sealed 20 2, sealed 29 32, sealed 29 9, sealed 29 131,
      sealed 34 3].all (fun x => parseBeacon x == none) = true ∧
    parseBeacon (sealed 34 68) = parseBeacon full ∧ (parseBeacon full).isSome = true := by
  decide +kernel

/-- ClashingFramesRaise: the own tag and a tag held elsewhere, in WINDOWED and in OPEN mode. -/
theorem test_ClashingFramesRaise : let s := State.entry 3 (peer 33 .counted) (marked .agreed 9)
    let l := State.entry 3 (peer 33 .counted) (at' .listen none)
    let own := beacon .agreed 9 7
    let held := beacon .agreed 9 33
    (parseBeacon own.bytes = some own ∧ (s.elapse d8).link.mode ≠ .off ∧ ((s.elapse d8).markAt 8000).agreed = some (r100 + 2270400) ∧
      slotOf (r100 + 2270400) = own.slot ∧ own.tag = (s.elapse d8).config.tag) ∧
    (parseBeacon held.bytes = some held ∧ (3 : Fin 32) ≠ held.slot ∧ ((s.elapse d8).peers.entries[(3 : Fin 32)]).tag = some held.tag) ∧
    (openIn d8 8000 own l = true ∧ openIn d8 8000 held l = true ∧ held.slot ≠ (l.elapse d8).config.slot) ∧
    left (.frameReceived d8 own.bytes 8000) s = some ((s.elapse d8).raise (.tagClash 9)) ∧
    left (.frameReceived d8 held.bytes 8000) l = some ((l.elapse d8).raise (.tagClash 9)) := by decide +kernel

/-- GoodBeaconHandedOn: in JOINING, in FOUNDING the next slot above the own one, and in LISTEN with and without a clock. -/
theorem test_GoodBeaconHandedOn : let l := at' .listen none
    goodIn d8 8000 (beacon .agreed 9 33) (marked .joining 9) = true ∧
    (goodIn d8 8000 (beacon .founding 6 33) (marked .founding 6) = true ∧
      ((marked .founding 6).elapse d8).config.slot ≤ 6) ∧
    (openIn d8 8000 (beacon .joining 9 33) l = true ∧ openIn z 0 (beacon .withdrawing 9 33) (marked .listen 9) = true) ∧
    ran (.frameReceived d8 (beacon .agreed 9 33).bytes 8000) (marked .joining 9) (fun t =>
      t.peers.entries[9].rawLag == some 400 && t.peers.entries[9].observation == .good && t.link.arrivals[9]) = true ∧
    ran (.frameReceived d8 (beacon .joining 9 33).bytes 8000) l (fun t =>
      t.station.state == .listen && t.peers.entries[9].tag == some 33 && t.peers.entries[9].rawLag == none) = true ∧
    ran (.frameReceived z (beacon .withdrawing 9 33).bytes 0) (marked .listen 9) (fun t =>
      t.peers.entries[9].observation == .leaving && t.peers.entries[9].rawLag == some 400) = true := by
  decide +kernel

/-- HandOffStages: each clause, the observations at the window and one beyond it. -/
theorem test_HandOffStages : let own : Fin 32 := 5
    let b := beacon .agreed 9 33
    let gone := beacon .withdrawing 9 33
    let p := peer 33 .counted
    let fresh := { p with delay := none }
    ((peer 34 .counted).state.occupied = true ∧ (peer 34 .counted).tag ≠ some b.tag ∧ PeerEntry.empty.state.occupied = false ∧
      p.tag = some b.tag) ∧
    (gone.state = .withdrawing ∧ b.state ≠ .withdrawing) ∧
    ((p.handOff own 10000 0 (some (-9600)) b).observation = .good ∧ (p.handOff own 10000 0 (some (-9601)) b).observation = .wild ∧
      (p.handOff own 10000 0 (some 0) b).delay = some 400) ∧
    ((fresh.handOff own 10000 0 (some 15000) b).observation = .good ∧
      (fresh.handOff own 10000 0 (some 15001) b).observation = .wild ∧ (fresh.handOff own 10000 0 (some 0) b).delay = none) ∧
    (p.handOff own 10000 0 (some 0) gone).observation = .leaving ∧ (p.handOff own 10000 0 none b).observation = .good ∧
    (let s := State.entry 9 (peer 34 .excluded) (at' .agreed (some r100));
      (s.peers.entries[(9 : Fin 32)]).tag = some 34 ∧ 34 ≠ b.tag ∧ shows (s.handToPeer 9 (some 400) b) (.peerLost 9 34) = true) := by
  decide +kernel

/-- DelaySampleSmoothed: samples of 0, 5,000, below and above, with and without an estimate. -/
theorem test_DelaySampleSmoothed : let own : Fin 32 := 5
    let b := fun (y : Int) => ({ beacon .agreed 9 33 with echoes := [⟨5, y, 0⟩] } : Beacon)
    let p := peer 33 .counted
    let fresh := { p with delay := none }
    (b 0).echoOf own = some 0 ∧ (b 0).state ≠ .withdrawing ∧
    (p.restarts 33 = false ∧ (peer 34 .counted).restarts 33 = true) ∧
    (fresh.handOff own 10000 0 (some 0) (b 0)).delay = some 0 ∧ (fresh.handOff own 10000 0 (some 0) (b 10000)).delay = some 5000 ∧
    (p.handOff own 10000 0 (some 0) (b 10000)).delay = some 975 ∧ (p.handOff own 10000 0 (some 0) (b 10002)).delay = some 400 ∧
    (p.handOff own 10000 0 (some 0) (b (-2))).delay = some 400 ∧ (p.handOff own 10000 1 (some 0) (b 0)).delay = some 400 ∧
    (beacon .agreed 9 33).echoOf own = none ∧ (p.handOff own 10000 0 (some 0) (beacon .agreed 9 33)).delay = some 400 ∧
    ((at' .agreed none).config.slot = own ∧ (at' .agreed none).peers.hold = 0) := by decide +kernel

/-- ListenerIntegrates: without a clock, with one that slews, with one that needs no step, and with one set since the mark. -/
theorem test_ListenerIntegrates : let b := beacon .agreed 9 33
    let s := (marked .listen 9).setDiscipline { (marked .listen 9).discipline with slew := some ⟨9, 0, 900000000 * unitsPerNs⟩ }
    let exact := at' .listen (some (r100 + 2270000))
    let late := ((at' .listen none).elapse d8).setDiscipline { Discipline.reset with clock := some ((r100 + 2277999) * unitsPerNs) }
    openIn d8 8000 b (at' .listen none) = true ∧ openIn z 0 b s = true ∧ openIn z 0 b exact = true ∧ openIn z 8000 b late = true ∧
    ((late.elapse z).markAt 8000).agreed = none ∧
    b.tag ≠ (s.elapse z).config.tag ∧ b.slot ≠ (s.elapse z).config.slot ∧ (s.elapse z).link.owedRoundEnd = none ∧
    (∀ i : Fin 32, i ≠ b.slot → ((s.elapse z).peers.entries[i]).tag ≠ some b.tag) ∧
    ran (.frameReceived d8 b.bytes 8000) (at' .listen none) (fun t =>
      t.station.state == .joining && t.reading == some (r100 + 2270000 + 8000)) = true ∧
    ran (.frameReceived z b.bytes 0) s (fun t =>
      t.station.state == .joining && t.reading == some (r100 + 2270000) && t.discipline.slew.isNone) = true ∧
    ran (.frameReceived z b.bytes 0) exact (fun t => t.reading == some (r100 + 2270000)) = true ∧
    ran (.frameReceived z b.bytes 8000) late (fun t => t.reading == some (r100 + 2278000)) = true := by
  decide +kernel

/-- FounderYields: to an AGREED beacon of a higher slot, and to a FOUNDING one of the slot below. -/
theorem test_FounderYields : goodIn d8 8000 (beacon .agreed 9 33) (marked .founding 9) = true ∧
    goodIn d8 8000 (beacon .founding 4 33) (marked .founding 4) = true ∧
    (4 : Fin 32) < ((marked .founding 4).elapse d8).config.slot ∧ ((marked .founding 4).elapse d8).link.owedRoundEnd = none ∧
    ran (.frameReceived d8 (beacon .founding 4 33).bytes 8000) (marked .founding 4) (fun t =>
      t.station.state == .joining && t.reading == some (r100 + 1020000 + 8000)) = true := by
  decide +kernel

/-- OwnSlotTaken: in LISTEN and in a state that is not. -/
theorem test_OwnSlotTaken : let b := beacon .agreed 5 33
    let moved := ((at' .listen none).elapse d8).setStation { Station.reset with state := .joining }
    openIn d8 8000 b (at' .listen none) = true ∧ b.tag ≠ ((at' .listen none).elapse d8).config.tag ∧
    b.slot = ((at' .listen none).elapse d8).config.slot ∧
    (openIn z 8000 b moved = true ∧ (moved.elapse z).station.state ≠ .listen) ∧
    ran (.frameReceived d8 b.bytes 8000) (at' .listen none) (fun t =>
      t.station.state == .standby && t.station.faultReason == .cause .slotTaken) = true := by decide +kernel

/-- OwnWindowReadBack: in the window a damaged frame, another station's, and the own one. -/
theorem test_OwnWindowReadBack : let s := marked .agreed 5
    let u := s.elapse d8
    let back := fun (bytes : List Byte) (r : ReadBack) => ran (.frameReceived d8 bytes 8000) s fun t => t.link.readBack == r
    (u.markAt 8000 = ⟨.windowed, false, some (r100 + 1270400), 8000⟩ ∧ u.link.mode = .windowed ∧
      slotOf (r100 + 1270400) = u.config.slot ∧ u.reading = some (r100 + 1278400) ∧ (r100 + 1278400) / 8000000 = 100 ∧
      slotOf (r100 + 1278400) = u.config.slot) ∧
    back [] ⟨false, false, false, true⟩ = true ∧ back (beacon .agreed 5 33).bytes ⟨false, false, true, false⟩ = true ∧
    back (beacon .agreed 5 7).bytes ⟨true, false, false, false⟩ = true := by decide +kernel

/-- A station 4 µs past its own window of round 100, judged with record `r` from `before` collisions; a mark 8 µs back lies in it. -/
def judged (st : StationState) (r : ReadBack) (before : Nat) : State :=
  let s := (at' st (some (r100 + 1496000))).elapse d8
  s.setLink { s.link with judged := some ⟨100, before, r⟩, collisions := r.verdict.count before }

/-- OwnWindowReadBack: a frame that ends after the judgement of its window, which was clean. -/
theorem test_OwnWindowReadBack_late : let clean : ReadBack := ⟨true, false, false, false⟩
    let s := judged .agreed clean 1
    ((s.elapse z).markAt 8000 = ⟨.windowed, false, some (r100 + 1496000), 8000⟩ ∧ slotOf (r100 + 1496000) = (s.elapse z).config.slot ∧
      (s.elapse z).link.toJudge = none ∧ (s.elapse z).reading = some (r100 + 1504000) ∧ slotOf (r100 + 1504000) = 6 ∧
      (s.elapse z).link.judged = some ⟨100, 1, clean⟩) ∧
    ran (.frameReceived z [] 8000) s (fun t => t.link.collisions == 2 && t.station.state == .agreed) = true := by decide +kernel

/-- OwnWindowReadBack: the other judgements anew. -/
theorem test_OwnWindowReadBack_anew : let clean : ReadBack := ⟨true, false, false, false⟩
    let s := judged .agreed clean 1
    ran (.frameReceived z [] 8000) (judged .joining clean 2) (fun t => t.link.collisions == 3 && t.station.state == .standby) = true ∧
    ran (.frameReceived z (beacon .agreed 5 33).bytes 8000) (judged .founding clean 0) (fun t =>
      t.station.state == .listen && t.station.listenTimer == some 41) = true ∧
    ran (.frameReceived z (beacon .agreed 5 7).bytes 8000) s (fun t => t.link.collisions == 1) = true ∧
    ran (.frameReceived z [] 8000) (judged .agreed ⟨false, false, false, true⟩ 1) (fun t => t.link.collisions == 2) = true ∧
    left (.frameReceived z [] 8000) ((at' .agreed (some (r100 + 1496000))).elapse d8) =
      some (((at' .agreed (some (r100 + 1496000))).elapse d8).elapse z) := by
  decide +kernel

/-- A station in its own window, an occasion open. -/
def building (ns : Nat) : State :=
  let s := at' .agreed (some ns)
  s.setLink { s.link with buildOpen := true }

/-- BeaconBuilt: at the first and at the last ns of the span. -/
theorem test_BeaconBuilt : (∀ ns ∈ [r100 + 1250000, r100 + 1269519], let u := (building ns).elapse z
      u.reading = some ns ∧ u.station.state.beaconState = some .agreed ∧ u.link.buildOpen = true ∧ u.source.coasting = false ∧
      u.config.slot.val * 250000 ≤ ns % 8000000 ∧ ns % 8000000 < u.config.slot.val * 250000 + 19520 ∧ u.link.built = none ∧
      u.link.transmitter = none ∧ ns / 8000000 ∉ u.link.departed) ∧
    ran (.beaconBuild z) (building (r100 + 1250000)) (fun t => t.link.built.isSome && !t.link.buildOpen) = true ∧
    ran (.beaconBuild z) (building (r100 + 1269520)) (fun t => t.link.built.isNone) = true ∧
    (let b := building (r100 + 1250000); let s := b.setLink { b.link with transmitter := some ⟨[], 99, 9⟩ };
      left (.beaconBuild z) s = some (s.elapse z)) ∧
    ((at' .listen (some (r100 + 1269519))).enterFounding .expired).link.buildOpen = true ∧
    ((at' .listen (some (r100 + 1269520))).enterFounding .expired).link.buildOpen = false := by decide +kernel

/-- EchoesSelected: a table with no echo, one with a single echo, and one that is eligible behind 8 that are taken. -/
theorem test_EchoesSelected : let one := ((State.entry 9 (peer 33 .counted) (at' .agreed none))).peers
    let all : PeerTable := ⟨tabulate 32 fun i => peer (100 + i.val) .excluded, 0⟩
    PeerTable.reset.selectEchoes 4 = [] ∧ (one.selectEchoes 4).length < 8 ∧
    (one.selectEchoes 4).getLast? = some ⟨9, 400, 0⟩ ∧ pointerAfter 4 (one.selectEchoes 4) = 10 ∧
    (all.selectEchoes 30).map (·.slot) = [30, 31, 0, 1, 2, 3, 4, 5] ∧ all.entries[6].rawLag = some 400 := by decide +kernel

/-- A beacon built, its frame begun or not, `n` departures of the withdrawal counted. -/
def sending (st : StationState) (b : PeerState) (ns : Nat) (begun : Bool) (n : Nat) : State :=
  let s := at' st (some ns)
  (s.setLink { s.link with
    built := some ⟨beacon b 5 7, 100, begun⟩, transmitter := if begun then some ⟨(beacon b 5 7).frame, 100, 0⟩ else none }).setStation
      { s.station with withdrawCount := n }

/-- BeaconSentAndReported: the frame start at its instant, a departure of each kind. -/
theorem test_BeaconSentAndReported :
    (let u := (sending .agreed .agreed (r100 + 1269520) false 0).elapse z;
      u.reading = some (r100 + 1269520) ∧ u.link.built = some ⟨beacon .agreed 5 7, 100, false⟩ ∧ u.link.transmitter = none ∧
      u.station.state.transmits = true ∧ u.source.coasting = false ∧
      100 * 8000000 + (5 : Fin 32).val * 250000 + 20000 - 480 ≤ r100 + 1269520) ∧
    ran (.frameStart z) (sending .agreed .agreed (r100 + 1269520) false 0) (fun t => t.link.transmitter.isSome) = true ∧
    ran (.frameStart z) (sending .agreed .agreed (r100 + 1269519) false 0) (fun t => t.link.transmitter.isNone) = true ∧
    ran (.beaconDeparture z) (sending .agreed .agreed (r100 + 1273000) true 0) (fun t => t.link.toJudge == some 100) = true ∧
    ran (.beaconDeparture z) (sending .withdrawing .withdrawing (r100 + 1273000) true 0) (fun t => t.station.withdrawCount == 1) = true ∧
    ran (.withdrawn z) (sending .withdrawing .withdrawing (r100 + 1273000) true 1) (fun t => t.station.state == .standby) = true := by
  decide +kernel

/-- BeaconSentAndReported: a frame that has begun before an entry into STANDBY goes on to its end, which is no departure; and
one that has not ended. -/
theorem test_BeaconSentAndReported_after_entry : let s := sending .withdrawing .withdrawing (r100 + 1273000) true 1
    let t := s.enterStandby .collision
    let u := t.elapse z
    (t.link.built = none ∧ t.link.transmitter = s.link.transmitter ∧ s.link.transmitter.isSome = true) ∧
    (u.link.transmitter = s.link.transmitter ∧ u.link.built = none ∧ u.synthTime = 0) ∧
    ran (.beaconDeparture z) t (fun v => v.link.transmitter == none && v.link.departed == [100] && v.link.toJudge == none
      && v.station == t.station) = true ∧
    left (.withdrawn z) t = some u ∧
    (let late := t.setLink { t.link with transmitter := some ⟨[], 100, 1⟩ };
      left (.beaconDeparture z) late = some (late.elapse z)) := by
  decide +kernel

/-- A station past its own window of round 100, with a read-back record and a collision count. -/
def judging (st : StationState) (r : ReadBack) (collisions : Nat) : State :=
  let s := at' st (some (r100 + 1500000))
  s.setLink { s.link with readBack := r, collisions := collisions, toJudge := some 100 }

/-- OwnWindowJudged: clean, a first collision, and a window with nothing to judge. -/
theorem test_OwnWindowJudged : let s := judging .agreed ⟨true, false, false, false⟩ 1
    ((s.elapse z).reading = some (r100 + 1500000) ∧ (s.elapse z).link.mode = .windowed ∧ (s.elapse z).link.toJudge = some 100 ∧
      slotOf (r100 + 1500000) ≠ (s.elapse z).config.slot) ∧
    ran (.ownWindowClose z) s (fun t => t.link.collisions == 0) = true ∧
    ran (.ownWindowClose z) (judging .agreed ⟨true, false, true, false⟩ 1) (fun t => t.link.collisions == 2) = true ∧
    ran (.ownWindowClose z) (at' .agreed (some r100)) (fun t => t.link.collisions == 0) = true ∧
    (let back := (at' .agreed (some (r100 + 1249999)));
      let w := back.setLink { back.link with readBack := ⟨true, false, false, false⟩, collisions := 1, toJudge := some 100 };
      ran (.ownWindowClose z) w (fun t => t.link.collisions == 0 && t.link.toJudge == none) = true) ∧
    (let sending := judging .agreed ⟨false, false, true, false⟩ 1;
      let w := sending.setLink { sending.link with toJudge := none, transmitter := some ⟨[], 100, 9⟩ };
      ran (.ownWindowClose z) w (fun t => t.link.collisions == 1 && t.link.readBack == ReadBack.cleared) = true) := by
  decide +kernel

/-- CollisionsMoveTheStation: a founder's first, a second and a third, and a round end that stays due. -/
theorem test_CollisionsMoveTheStation : let r : ReadBack := ⟨false, false, false, true⟩
    let f := judging .founding r 0
    ran (.ownWindowClose z) f (fun t => t.station.state == .listen && t.station.listenTimer == some 41) = true ∧
    ((f.elapse z).roundEndDue = some (some 99) ∧ ran (.ownWindowClose z) f (fun t => t.roundEndDue == some (some 99)) = true) ∧
    ran (.ownWindowClose z) (judging .joining r 1) (fun t => t.station.state == .joining && t.link.collisions == 2) = true ∧
    ran (.collision z) (judging .joining r 2) (fun t => t.station.state == .standby && t.link.collisions == 3) = true := by
  decide +kernel
/-! #### Round ends -/

/-- A round end of round 99 is due: the reading stands at the start of round 100. -/
def closing (st : StationState) : State := at' st (some r100)

/-- A round end is due and no forward step owes one: the hypotheses that the round end statements share. -/
def closes (s : State) : Bool := (s.elapse z).roundEndDue == some (some 99) && (s.elapse z).link.owedRoundEnd.isNone

/-- RoundEndSignalled: never in STANDBY; due at the start of a round, not where it was followed or signalled; and by
synthesizer time in LISTEN at 8 ms, not one half ns before. -/
theorem test_RoundEndSignalled : let s := closing .agreed
    let l := fun (h : Nat) => (at' .listen none).setLink { (at' .listen none).link with listenRound := some h }
    ((at' .standby (some r100)).elapse z).station.state = .standby ∧
    ((s.elapse z).reading = some r100 ∧ (s.elapse z).link.followed = none ∧ (s.elapse z).link.lastRoundEnd = none ∧
      0 < r100 / 8000000) ∧
    ran (.roundEnd z) s (fun t => t.link.lastRoundEnd == some 99 && t.link.followed == some 100) = true ∧
    (let u := s.setLink { s.link with followed := some 100 };
      (u.elapse z).link.followed = some 100 ∧ r100 / 8000000 ≤ 100 ∧ left (.roundEnd z) u = some u) ∧
    (let u := s.setLink { s.link with lastRoundEnd := some 99 };
      (u.elapse z).link.lastRoundEnd = some 99 ∧ r100 / 8000000 ≤ 99 + 1 ∧ left (.roundEnd z) u = some u) ∧
    (((l 16000000).elapse z).link.listenRound = some 16000000 ∧
      ran (.roundEnd z) (l 16000000) (fun t => t.link.listenRound == some 0) = true) ∧
    left (.roundEnd z) (l 15999999) = some (l 15999999) := by decide +kernel

/-- RoundCloseOfEntries: each clause at its bound, on entries closed with admission count 4. -/
theorem test_RoundCloseOfEntries : let p := peer 33 .counted
    let close := PeerEntry.close 4
    (PeerEntry.own 7).state = .self ∧
    (p.observation = .none ∧ (close p).resultObservation = .absent) ∧ (close PeerEntry.empty).resultObservation = .none ∧
    (p.lagAge = .zero ∧ p.delay = some 400 ∧ (close { p with delayAge := 255 }).delayAge = 256 ∧
      (close { p with delayAge := 256 }).delay = none) ∧
    (close { PeerEntry.empty with observation := .good, tag := some 33 }).state = .heard ∧
    close { PeerEntry.empty with observation := .wild, tag := some 33, deviation := some 9 } =
      { PeerEntry.empty with resultObservation := .wild, resultDeviation := some 9 } ∧
    close { p with observation := .leaving, anchored := true } = { PeerEntry.empty with resultObservation := .leaving } ∧
    close { p with absentStreak := 15, goodStreak := 2 } = { PeerEntry.empty with resultObservation := .absent } ∧
    (close { p with absentStreak := 14, state := .heard }).absentStreak = 15 ∧
    (close { p with absentStreak := 3 }).state = .heard ∧
    (close { p with observation := .good, goodStreak := 255 }).goodStreak = 255 ∧
    (close { p with observation := .wild, wildStreak := 254 }).wildStreak = 255 ∧
    close { PeerEntry.empty with tag := some 33, peerState := some .joining, rawLag := some 9, lagAge := .zero } = PeerEntry.empty ∧
    (let q := close { PeerEntry.empty with observation := .good, tag := some 33, goodStreak := 9, wildStreak := 2, absentStreak := 3 };
      q.goodStreak = 1 ∧ q.wildStreak = 0 ∧ q.absentStreak = 0) := by decide +kernel

/-- RoundCloseOfEntries: the states R57 decides, each at the bound where it changes. -/
theorem test_RoundCloseOfEntries_states : let good := fun (st : EntryState) => { peer 33 st with observation := .good }
    let wild := fun (st : EntryState) => { peer 33 st with observation := .wild }
    let state := fun (p : PeerEntry) => (p.close 4).state
    ((good .heard).delay.isSome = true ∧ (good .heard).delayAge < 256) ∧
    state { good .heard with goodStreak := 3 } = .counted ∧ state { good .heard with goodStreak := 2 } = .heard ∧
    state { good .heard with goodStreak := 3, delay := none } = .heard ∧
    state { good .heard with goodStreak := 3, delayAge := 255 } = .counted ∧
    state { good .heard with goodStreak := 3, delayAge := 256 } = .heard ∧ state (wild .heard) = .heard ∧
    state (good .counted) = .counted ∧ state { good .counted with delayAge := 256 } = .heard ∧
    state { peer 33 .counted with absentStreak := 2 } = .counted ∧ state { peer 33 .counted with absentStreak := 3 } = .heard ∧
    state { wild .counted with wildStreak := 1 } = .counted ∧ state { wild .counted with wildStreak := 2 } = .excluded ∧
    state { wild .counted with wildStreak := 2, delayAge := 256 } = .heard ∧
    state { good .excluded with goodStreak := 6 } = .excluded ∧ state { good .excluded with goodStreak := 7 } = .counted ∧
    state { good .excluded with goodStreak := 7, delay := none } = .heard ∧
    state { good .excluded with goodStreak := 7, delayAge := 256 } = .heard ∧ state (wild .excluded) = .excluded ∧
    state { peer 33 .excluded with absentStreak := 14 } = .excluded := by decide +kernel

/-- PeerChangesReported: for each row a round end that makes its change to slot 9, at the streak where it is made. -/
theorem test_PeerChangesReported : let s := fun (p : PeerEntry) => State.entry 9 p (closing .agreed)
    let heard := { peer 33 .heard with observation := .good, goodStreak := 3 }
    let excluded := { peer 33 .excluded with observation := .good, goodStreak := 7 }
    let wild := { peer 33 .counted with observation := .wild, wildStreak := 2 }
    (closes (s heard) = true ∧ heard.tag = some 33 ∧ ((s heard).elapse z).config.admission ≤ heard.goodStreak + 1 ∧
      (∀ i : Fin 32, 9 < i → ((s heard).elapse z).admits i = false)) ∧
    (∀ i : Fin 32, 9 < i → ((s wild).elapse z).excludes i = false) ∧ (∀ i : Fin 32, 9 < i → ((s wild).elapse z).loses i = false) ∧
    ran (.peerAdmitted z 9) (s heard) (fun t => t.peers.entries[9].state == .counted) = true ∧
    ran (.peerAdmitted z 9) (s excluded) (fun t => t.peers.entries[9].state == .counted) = true ∧
    ran (.peerExcluded z 9) (s wild) (fun t => t.peers.entries[9].state == .excluded) = true ∧
    ran (.peerDemoted z 9) (s { peer 33 .counted with absentStreak := 3 }) (fun t => t.peers.entries[9].state == .heard) = true ∧
    ran (.peerLost z 9) (s { peer 33 .counted with absentStreak := 15 }) (fun t => t.peers.entries[9].state == .vacant) = true ∧
    (let leaving := { peer 33 .excluded with observation := .leaving };
      closes (s leaving) = true ∧ (∀ i : Fin 32, 9 < i → (((s leaving).elapse z).peers.entries[i]).observation ≠ .leaving) ∧
      ran (.roundEnd z) (s leaving) (fun t => t.peers.entries[9].state == .vacant && shows t (.peerLeft 9 33)) = true) ∧
    ran (.delayEstimateExpired z 9) (s { peer 33 .counted with observation := .good, delayAge := 256 })
      (fun t => t.peers.entries[9].state == .heard && t.peers.entries[9].delay.isNone) = true := by decide +kernel

/-- FoundingRoundClose: the quorum of 1 met, a founding timer below its end, and at it. -/
theorem test_FoundingRoundClose : let s := closing .founding
    let timed := fun (n : Nat) => s.setStation { s.station with foundingTimer := n }
    closes s = true ∧ (s.elapse z).station.state = .founding ∧
    ran (.roundEnd z) (State.entry 9 (peer 33 .heard) s) (fun t => t.station.state == .agreed && t.discipline.holdoverValid) = true ∧
    ran (.roundEnd z) (timed 62) (fun t => t.station.foundingTimer == 63) = true ∧
    ran (.foundingTimeout z) (timed 63) (fun t => t.station.state == .listen) = true := by decide +kernel

/-- JoiningRoundClose: a peer heard, and the silence count below its end and at it. -/
theorem test_JoiningRoundClose : let s := closing .joining
    let timed := fun (n : Nat) => s.setStation { s.station with silenceCount := n }
    closes s = true ∧ (s.elapse z).station.state = .joining ∧
    (((((State.entry 9 (peer 33 .heard) (timed 15)).elapse z).signal (some 99)).closeTable).peers.entries[(9 : Fin 32)]).state = .heard ∧
    ran (.roundEnd z) (State.entry 9 (peer 33 .heard) (timed 15)) (fun t => t.station.silenceCount == 0) = true ∧
    ran (.roundEnd z) (timed 14) (fun t => t.station.silenceCount == 15) = true ∧
    ran (.joiningSilenceTimeout z) (timed 15) (fun t => t.station.state == .listen) = true := by decide +kernel

/-- A listener with a seed, an anchor, or neither. -/
def listener (ns : Option Nat) (seed : Option Seed) (offset : Option Int) (timer : Nat) : State :=
  let s := at' .listen ns
  (s.setStation { s.station with seed := seed, listenTimer := some timer }).setAnchor
    { s.anchor with offset := offset, valid := offset.isSome }

/-- ListenTimerExpires: the timer running; no seed; and founding by anchor, by the clock as it reads, and by seed. -/
theorem test_ListenTimerExpires : let w : Seed := ⟨1, 5, 16⟩
    let alone := (listener none none none 1).setLink { (listener none none none 1).link with listenRound := some 16000000 }
    let seeded := (listener none (some w) none 1).setLink alone.link
    (closes (listener (some r100) none none 2) = true ∧
      ran (.roundEnd z) (listener (some r100) none none 2) (fun t => t.station.listenTimer == some 1) = true) ∧
    ((alone.elapse z).roundEndDue = some none ∧
      ran (.listenTimerExpiry z) alone (fun t => t.station.listenTimer == some 9 && t.station.listenNotice) = true) ∧
    ran (.listenTimerExpiry z) (listener (some r100) none (some 500) 1) (fun t =>
      t.station.state == .founding && t.reading == some (r100 + 500) && t.anchor.offset == some 0) = true ∧
    (clampUnits (r100 * unitsPerNs + 500 * 1000000000) / 1000000000 / 8000000 ≤ r100 * unitsPerNs / 1000000000 / 8000000) ∧
    ran (.listenTimerExpiry z) (listener (some r100) (some w) none 1) (fun t => t.station.state == .founding && t.reading == some r100) = true ∧
    ran (.listenTimerExpiry z) seeded (fun t => t.station.state == .founding && t.reading == some 1000001005) = true := by
  decide +kernel

/-- A COUNTED contributor that closes GOOD with a deviation. -/
def contributor (tag : Nat) (d : Int) : PeerEntry := { peer tag .counted with observation := .good, deviation := some d, labelOffset := some 60 }

/-- QuorumLost: a seventh and an eighth short round. -/
theorem test_QuorumLost : let s := fun (n : Nat) => (closing .agreed).setAgreement { Agreement.reset with shortRounds := n }
    closes (s 7) = true ∧ ((((s 7).elapse z).signal (some 99)).closeTable).contributors.length < ((s 7).elapse z).config.quorum ∧
    ran (.roundEnd z) (s 6) (fun t => t.station.state == .agreed && t.agreement.shortRounds == 7) = true ∧
    ran (.quorum z) (s 7) (fun t => t.station.state == .isolated) = true := by decide +kernel

/-- ThirdDisagreementRejoins: a first and a third estimate one beyond M. -/
theorem test_ThirdDisagreementRejoins :
    let s := fun (n : Nat) => State.entry 9 (contributor 33 20000002) ((closing .agreed).setAgreement { Agreement.reset with disagreements := n })
    let c := (((s 2).elapse z).signal (some 99)).closeTable
    closes (s 2) = true ∧ c.config.quorum ≤ c.contributors.length ∧ c.minority = false ∧
    c.config.maxStep < (estimateOf c.deviationList).natAbs ∧
    ran (.roundEnd z) (s 0) (fun t => t.station.state == .agreed && t.agreement.disagreements == 1) = true ∧
    ran (.disagree z) (s 2) (fun t => t.station.state == .joining) = true := by decide +kernel

/-- ThirdDisagreementRejoins: estimates of the step threshold, of M, and in the dead band, each within M and taken. -/
theorem test_ThirdDisagreementRejoins_within :
    let s := fun (x : Int) => State.entry 9 (contributor 33 x) ((closing .agreed).setAgreement { Agreement.reset with disagreements := 2 })
    let c := fun (x : Int) => (((s x).elapse z).signal (some 99)).closeTable
    closes (s 100000) = true ∧ (c 100000).config.quorum ≤ (c 100000).contributors.length ∧ (c 100000).minority = false ∧
    (estimateOf (c 100000).deviationList).natAbs = (c 100000).config.stepThreshold ∧
    (estimateOf (c 20000000).deviationList).natAbs = (c 20000000).config.maxStep ∧
    ran (.roundEnd z) (s 100000) (fun t => t.discipline.slew.map (·.amount) == some 80 && t.agreement.disagreements == 0
      && t.station.state == .agreed) = true ∧
    ran (.roundEnd z) (s 20000000) (fun t => t.reading == some (r100 + 10000000) && t.link.lastRoundEnd == some 100) = true ∧
    ran (.roundEnd z) (s 40) (fun t => t.discipline.slew.isNone && t.agreement.estimate == some 20) = true := by decide +kernel

/-- FourthSettledPointAgrees: the joining step by a GOOD and by a WILD round, and an estimate one beyond the step threshold. -/
theorem test_FourthSettledPointAgrees_steps :
    let s := fun (taken : Bool) (p : PeerEntry) => let j := closing .joining;
      State.entry 9 p ((j.setDiscipline { j.discipline with joiningStepTaken := taken }).setStation { j.station with settleCount := 3 })
    let wild := { contributor 33 60000 with observation := .wild }
    let c := fun (taken : Bool) (p : PeerEntry) => (((s taken p).elapse z).signal (some 99)).closeTable
    closes (s false wild) = true ∧ (c false wild).contributors = [9] ∧ (c true wild).contributors = [] ∧
    (estimateOf (c true (contributor 33 100002)).deviationList).natAbs = (c true (contributor 33 100002)).config.stepThreshold + 1 ∧
    ran (.roundEnd z) (s false wild) (fun t => t.reading == some (r100 + 30000) && t.discipline.joiningStepTaken
      && t.station.settleCount == 3 && t.station.state == .joining) = true ∧
    ran (.roundEnd z) (s true (contributor 33 100002)) (fun t => t.reading == some (r100 + 50001) && t.station.settleCount == 0) = true := by
  decide +kernel

/-- FourthSettledPointAgrees: no contributor, a third and a fourth settled point at the step threshold. -/
theorem test_FourthSettledPointAgrees :
    let joined := (closing .joining).setDiscipline { (closing .joining).discipline with joiningStepTaken := true }
    let s := fun (n : Nat) => State.entry 9 (contributor 33 100000) (joined.setStation { joined.station with settleCount := n })
    let c := (((s 3).elapse z).signal (some 99)).closeTable
    closes (s 3) = true ∧ ((s 3).elapse z).discipline.joiningStepTaken = true ∧ c.contributors ≠ [] ∧
    (estimateOf c.deviationList).natAbs = c.config.stepThreshold ∧ ((joined.elapse z).signal (some 99)).closeTable.contributors = [] ∧
    c.votes 60 = 1 ∧ ran (.roundEnd z) (s 2) (fun t => t.station.state == .joining && t.station.settleCount == 3) = true ∧
    ran (.settled z) (s 3) (fun t => t.station.state == .agreed && t.anchor.labelOffset == 60) = true := by decide +kernel

/-- An EXCLUDED peer that closes WILD with a deviation. -/
def stray (tag : Nat) (d : Int) : PeerEntry := { peer tag .excluded with observation := .wild, deviation := some d }

/-- MinorityMerges: two against two, the lowest slot theirs, their deviations 2W apart. -/
theorem test_MinorityMerges :
    let s := State.entry 3 (stray 44 30000) (State.entry 4 (stray 45 10000) (State.entry 9 (contributor 33 10) (closing .agreed)))
    let c := ((s.elapse z).signal (some 99)).closeTable
    closes s = true ∧ c.otherGroup = [3, 4] ∧ c.contributors = [9] ∧ c.minority = true ∧
    ran (.roundEnd z) s (fun t => t.station.state == .joining && t.peers.entries[3].state == .counted
      && t.peers.entries[9].state == .excluded) = true := by decide +kernel

/-- HoldoverAgreementPoints: short and with quorum, in WITHDRAWING and in ISOLATED. -/
theorem test_HoldoverAgreementPoints : let w := closing .withdrawing
    let s := State.entry 9 (contributor 33 100000) (closing .isolated)
    let c := ((s.elapse z).signal (some 99)).closeTable
    closes w = true ∧ closes s = true ∧ ((w.elapse z).signal (some 99)).closeTable.contributors.length < w.config.quorum ∧
    (c.config.quorum ≤ c.contributors.length ∧ (estimateOf c.deviationList).natAbs = c.config.stepThreshold ∧
      (estimateOf c.deviationList).natAbs ≤ c.config.maxStep ∧ 0 < c.config.restartRounds) ∧
    ran (.roundEnd z) w (fun t => t.agreement.shortRounds == 1) = true ∧
    ran (.roundEnd z) (State.entry 9 (contributor 33 10) w) (fun t => t.agreement.estimate == some 5 && t.discipline.slew.isNone) = true ∧
    ran (.roundEnd z) (closing .isolated) (fun t => t.station.state == .isolated) = true ∧
    ran (.roundEnd z) s (fun t => t.station.state == .agreed && t.discipline.restart == 15 && t.discipline.slew.isSome) = true ∧
    ran (.roundEnd z) (State.entry 9 (contributor 33 20000002) (closing .isolated)) (fun t => t.station.state == .agreed
      && t.agreement.disagreements == 1 && t.discipline.restart == 16 && t.reading == some r100) = true := by
  decide +kernel

/-! #### The clock, outputs, anchors and sources -/

/-- EstimateTrimmed: who contributes of a GOOD founder, a WILD, a JOINING and a HEARD peer, before and after the joining step. -/
theorem test_EstimateTrimmed : let closed := fun (o : Observation) (st : PeerState) (e : EntryState) =>
      { peer 33 e with peerState := some st, resultObservation := o, resultDeviation := some 7 }
    let table := fun (taken : Bool) => let j := at' .joining (some r100);
      State.entry 3 (closed .good .founding .counted) (State.entry 4 (closed .wild .isolated .counted)
        (State.entry 6 (closed .good .joining .counted) (State.entry 9 (closed .good .agreed .heard)
          (j.setDiscipline { j.discipline with joiningStepTaken := taken }))))
    (table false).contributors = [3, 4] ∧ (table true).contributors = [3] ∧ (table false).deviationList = [0, 7, 7] ∧
    ([0] : List Int) ≠ [] ∧ estimateOf [0] = 0 := by decide +kernel

/-- DisciplineRows: an estimate for each row, at the bounds of the step threshold and of the dead band. -/
theorem test_DisciplineRows : let s := at' .agreed (some r100)
    let join := at' .joining (some r100)
    let coasted := s.setDiscipline { s.discipline with coastMark := true }
    [0, 1].map (fun e => join.row e false) = [.joiningStep, .joiningStep] ∧ s.row 60000 true = .beyondM ∧
    s.row 50001 false = .largeStep ∧ s.row 50000 false = .smoothed ∧ s.row (-20) false = .deadBand ∧ s.row 21 false = .smoothed ∧
    coasted.row 50000 false = .restartSlew ∧ s.discipline.clock = some (r100 * unitsPerNs) ∧
    (integrated 99999 100000 = 100000 ∧ integrated 0 (-100000) = -100000) ∧
    (join.applyRules 7 false 0).reading = some (r100 + 7) ∧
    (let t := (join.setDiscipline { join.discipline with slew := some ⟨3, 0, 5⟩ }).applyRules 0 false 0;
      t.discipline.slew = none ∧ t.reading = some r100) ∧ (s.applyRules 60000 true 3).discipline.slew.map (·.amount) = some 3 ∧
    (coasted.applyRules 50000 false 3).discipline.slew.map (·.amount) = some 50003 := by decide +kernel

/-- DisciplineRows: the steering of no anchor, of offsets at the limits and one beyond, and a short round that slews by it. -/
theorem test_DisciplineRows_steering : let s := at' .agreed (some r100)
    let own := fun (x : Int) => s.setAnchor { s.anchor with offset := some x, valid := true }
    let two := fun (x y : Int) => State.entry 9 { peer 33 .counted with
      anchored := true, anchorOffset := some y, resultObservation := .good, resultDeviation := some 0 } (own x)
    s.steer [] = (0, []) ∧ [2500, 2510].Perm ([2510, 2500] : List Int) ∧
    ((two 2510 2500).contributors = [9] ∧ (two 0 10000).steer [9] = (0, []) ∧
      (two 0 10001).steer [9] = (0, [.anchorsSplit 2 10001])) ∧
    (own 1000000000).steer [] = (8, []) ∧ (own (-1000000001)).steer [] = (0, [.anchorsFar (-1000000001)]) ∧
    (own (-1535)).steer [] = (-5, []) ∧
    (s.contributors.length < s.config.quorum ∧
      (own (-1535)).agreementPoint.discipline.slew = some ⟨-5, 0, 808000000 * unitsPerNs⟩) := by decide +kernel

/-- A station with a generator in each state. -/
def running (ns : Nat) : State :=
  let s := at' .agreed (some ns)
  let g := fun (st : GenState) => { Generator.reset with
    state := st, run := some ⟨true, .video, .v25, none, 0, .stop⟩, next := some ⟨21, 840000000, 80000000⟩ : Generator }
  s.setGens (tabulate 4 fun i => match i with | 0 => g .running | 1 => g .armed | 2 => g .stopping | 3 => Generator.reset)

/-- The state with a slew pending. -/
def slewed (s : State) : State := s.setDiscipline { s.discipline with slew := some ⟨9, 0, 808000000 * unitsPerNs⟩ }

/-- StepReachesEveryBlock: forward over a label change, and backward past a beacon built. -/
theorem test_StepReachesEveryBlock : let s := running r100
    let t := (State.entry 9 { peer 33 .counted with observation := .wild } s).setAnchor
      { s.anchor with offset := some 9, change := some ⟨60, 1, .originated⟩ }
    let u := (s.setLink { s.link with built := some ⟨beacon .agreed 5 7, 100, false⟩ })
    (t.discipline.clock = some (r100 * unitsPerNs) ∧ (200000000 : Int) ≠ 0 ∧
      1 * 1000000000 ≤ clampUnits (r100 * unitsPerNs + 200000000 * 1000000000) / 1000000000 ∧
      clampUnits (r100 * unitsPerNs + 199999999 * 1000000000) / 1000000000 < 1 * 1000000000) ∧
    ((t.peers.entries[(9 : Fin 32)]).observation = .wild ∧ (s.gens[(0 : Fin 4)]).state = .running ∧ (s.gens[(1 : Fin 4)]).state = .armed ∧
      (s.gens[(2 : Fin 4)]).state = .stopping ∧ (s.gens[(3 : Fin 4)]).state = .off) ∧
    ((t.stepClock 200000000).anchor.labelOffset = 60 ∧ (t.stepClock 199999999).anchor.change.isSome = true ∧
      (t.stepClock 200000000).gens[(0 : Fin 4)].rephasePending = true ∧ (t.stepClock 200000000).peers.hold = 2) ∧
    (u.stepClock (-1)).link.built = none ∧ (u.stepClock 1269520).link.built = none ∧ (u.stepClock 1269519).link.built.isSome = true ∧
    (s.stepClock 1250000).link.buildOpen = true ∧ (s.stepClock 1249999).link.buildOpen = false ∧
    ((s.stepClock 5).stepClock (-9)).link.furthest = some (r100 + 5) ∧
    (let w := fun (n : Option Nat) => s.setLink { s.link with readBack := ⟨true, false, false, false⟩, toJudge := n };
      ((w none).stepClock 7999999).link.readBack.clean = true ∧ ((w none).stepClock 8000000).link.readBack = ReadBack.cleared ∧
      ((w none).stepClock (-1)).link.readBack = ReadBack.cleared ∧ ((w (some 100)).stepClock 8000000).link.readBack.clean = true) ∧
    ((slewed s).stepClock 0).discipline.slew = none ∧ ((slewed s).stepNoticed .estimate 0).notices = s.notices := by decide +kernel

/-- StepReachesEveryBlock: to the start of a later round, one ns short of it, back into an earlier one, and to a round whose
end stands. -/
theorem test_StepReachesEveryBlock_rounds : let s := State.entry 9 { peer 33 .counted with observation := .good, deviation := some 5 } (at' .joining (some r100))
    let u := s.setLink { s.link with lastRoundEnd := some 99, followed := some 100 }
    let stands := u.setLink { u.link with lastRoundEnd := some 101 }
    let x := u.stepClock 8000000
    (r100 * unitsPerNs / 1000000000 / 8000000 < clampUnits (r100 * unitsPerNs + 8000000 * 1000000000) / 1000000000 / 8000000) ∧
    (∀ l, u.link.lastRoundEnd = some l → l + 1 < 101) ∧ u.station.state.transmits = true ∧
    (x.link.owedRoundEnd = some 100 ∧ x.link.followed = some 101 ∧ (x.settleOwed 2).link.lastRoundEnd = some 100 ∧
      (x.settleOwed 2).roundEndDue = none ∧ (x.settleOwed 2).agreement.shortRounds = 1) ∧
    ((u.stepClock 7999999).link.owedRoundEnd = none ∧ (u.stepClock (-1)).link.followed = some 99 ∧
      (stands.stepClock 8000000).link.owedRoundEnd = none ∧ (stands.stepClock 8000000).link.followed = some 101) := by
  refine ⟨by decide +kernel, fun l h => ?_, by decide +kernel, by decide +kernel, by decide +kernel⟩
  obtain rfl : 99 = l := Option.some.inj h
  omega

/-- ClockRunsOn: LOCKED without a slew, with one that ends, one that goes on, and RELOCKING. -/
theorem test_ClockRunsOn : let s := at' .agreed (some r100)
    let d : Elapsed := ⟨1000, 16, 25, 10⟩
    let slewing := fun (x : Int) (endAt : Nat) => s.setDiscipline { s.discipline with slew := some ⟨x, 0, endAt * unitsPerNs⟩ }
    let coast := s.setSource { s.source with synth := .relocking, coasting := true }
    s.discipline.rate.natAbs ≤ 100000 ∧ s.source.synth = .locked ∧ coast.source.synth = .relocking ∧
    (s.elapse d).reading = some (r100 + 1000) ∧ (coast.elapse d).reading = some (r100 + 1000) ∧
    ((slewing 8 (r100 + 1008)).elapse d).reading = some (r100 + 1008) ∧
    ((slewing (-8) (r100 + 1992)).elapse d).reading = some (r100 + 996) ∧
    (((slewing (-8) (r100 + 1992)).setAnchor { s.anchor with offset := some 50 }).elapse d).anchor.offset = some 54 ∧
    (let last := 2 ^ 48 * 8000000 - 1;
      let held := (at' .agreed (some last)).setAnchor { s.anchor with offset := some 50 };
      let t := (held.setDiscipline { held.discipline with slew := some ⟨8, 0, (last + 1) * unitsPerNs⟩ }).elapse d;
      t.reading = some last ∧ t.anchor.offset = some 42) ∧
    (let a := at' .agreed (some (r100 + 1249999));
      (a.elapse d).link.buildOpen = true ∧ (s.elapse d).link.buildOpen = false) ∧
    (s.link.mode ≠ .off ∧ (s.elapse d).markAt 400 = ⟨.windowed, false, some (r100 + 600), 400⟩ ∧
      ((slewing (-8) (r100 + 1992)).elapse d).markAt 500 = ⟨.windowed, false, some (r100 + 498), 500⟩) := by decide +kernel

/-- ClockRunsOn: the counts, with a source not yet enabled for a whole window, in each state of the synthesizer, and with a
frame that goes on to its end. -/
theorem test_ClockRunsOn_counts : let d : Elapsed := ⟨1000, 16, 25, 10⟩
    let s := fun (synth : SynthState) (clock : Option Nat) => let a := at' .starting clock;
      (a.setSource { a.source with
        synth := synth, lockCount := 2030, unitTimer := some 3, windowTimer := 5, ref := { a.source.ref with whole := false } }).setLink
          { a.link with listenRound := some 7 }
    let t := (s .locking none).elapse d
    let frame := (s .locking none).setLink { (s .locking none).link with transmitter := some ⟨[], 100, 9⟩ }
    (t.source.windowTimer = 21 ∧ t.source.unitTimer = some 19 ∧ t.station.lockTime = some 16 ∧ t.source.lockCount = 2048 ∧
      t.source.xo.count = 25 ∧ t.source.ref.count = 0 ∧ t.synthTime = 0 ∧ t.link.listenRound = some 7) ∧
    ((frame.elapse d).synthTime = 2000 ∧ (frame.elapse d).link.listenRound = some 2007) ∧
    (((s .relocking none).elapse ⟨1000, 16, 17, 10⟩).source.lockCount = 2047 ∧ ((s .relocking none).elapse d).synthTime = 2000) ∧
    (((s .locked (some r100)).elapse d).source.lockCount = 2030 ∧ ((s .locked (some r100)).elapse d).synthTime = 2000 ∧
      ((s .locked (some r100)).elapse d).anchor.silence = 1000 * unitsPerNs ∧
      ((s .locked (some r100)).elapse d).link.furthest = some (r100 + 1000)) := by decide +kernel

/-- ClockRunsOn: after a step back to before the window start, a departure shown one ns short is not passed, one reached is. -/
theorem test_ClockRunsOn_passed : let d : Elapsed := ⟨1000, 16, 25, 10⟩
    let s := fun (ns : Nat) => (at' .agreed (some ns)).stepClock ((r100 + 1249999 : Int) - ns)
    ((s (r100 + 1269999)).reading = some (r100 + 1249999) ∧ (s (r100 + 1269999)).link.furthest = some (r100 + 1269999)) ∧
    ((s (r100 + 1269999)).elapse d).link.buildOpen = true ∧ ((s (r100 + 1270000)).elapse d).link.buildOpen = false := by
  decide +kernel

/-- BoundaryTimesAndBounds: a generator enabled and OFF is armed, others stay; HOLD and STOP on entry into STANDBY. -/
theorem test_BoundaryTimesAndBounds : let s := running r100
    let t := s.enterAgreed .settled
    let hold := s.setPort { s.port with record := some { cfg with gens := Vector.replicate 4 ⟨true, .video, .v25, none, 0, .hold⟩ } }
    s.reading = some r100 ∧ (s.config.gens[(3 : Fin 4)]).enable = true ∧ (s.gens[(3 : Fin 4)]).state = .off ∧
    t.gens[(3 : Fin 4)].next = some ⟨21, 840000000, 80000000⟩ ∧ t.gens[(0 : Fin 4)] = s.gens[(0 : Fin 4)] ∧
    ((at' .agreed (some (840000000 - 1000000))).enterAgreed .settled).gens[(3 : Fin 4)].next.map (·.number) = some 22 ∧
    (hold.enterStandby .withdrawn).gens = hold.gens ∧ s.source.synth ≠ .relocking ∧
    (s.enterStandby .withdrawn).gens[(0 : Fin 4)].state = .stopping ∧ (s.enterStandby .withdrawn).gens[(1 : Fin 4)].state = .off ∧
    (let g : GenSettings := ⟨true, .audio, .a48k, some .v25, 0, .stop⟩;
      s.station.state = .agreed ∧ (let u := s.setSource { s.source with synth := .relocking, coasting := true };
        u.source.synth = .relocking ∧ u.station.state = .agreed ∧ (u.enterStandby .withdrawn).gens[(0 : Fin 4)].state = .stopping) ∧
      sequenceLength g.rate .v25 ∣ 3840 ∧ ¬sequenceLength g.rate .v25 ∣ 3841 ∧ g.pulseNs 3840 20833 = 5208 ∧ g.pulseNs 3841 20833 = 10416) := by
  decide +kernel

/-- TimecodeNumbersGiveCounts: the last count of a day and the first beyond it. -/
theorem test_TimecodeNumbersGiveCounts :
    (RateCode.v60, 60) ∈ [(RateCode.film23, 24), (.film24, 24), (.v25, 25), (.v30, 30), (.v47, 48), (.v48, 48), (.v50, 50), (.v60, 60)] ∧
    RateCode.number .v60 (86400 * 60 - 1) = ⟨23, 59, 59, 59, false, false⟩ ∧
    (RateCode.v59, 60, 4, 5178816) ∈ [(RateCode.v29, 30, 2, 2589408), (.v59, 60, 4, 5178816)] ∧
    RateCode.number .v59 5178815 = ⟨23, 59, 59, 59, true, false⟩ ∧ RateCode.number .v59 5178816 = ⟨23, 59, 59, 59, true, true⟩ := by
  decide +kernel

/-- A station whose generators have a boundary due at its synthesizer time, or one half ns later. -/
def bounding (early : Bool) (rephase : Bool) : State :=
  let s := running (840000000 + 5)
  let t := { s with synthTime := if early then 79999999 else 80000000 }
  t.setGens (put t.gens 0 { t.gens[0] with rephasePending := rephase })

/-- GeneratorBoundariesTaken: not yet due, ordinary, rephased, and the end of a run. -/
theorem test_GeneratorBoundariesTaken : let set : GenSettings := ⟨true, .video, .v25, none, 0, .stop⟩
    let s := bounding false false
    ((s.elapse z).gens[(0 : Fin 4)].next = some ⟨21, 840000000, 80000000⟩ ∧ (s.elapse z).gens[(0 : Fin 4)].run = some set ∧
      (s.elapse z).discipline.rate.natAbs ≤ 100000 ∧ (s.elapse z).reading = some 840000005) ∧
    left (.generatorBoundary z 0) (bounding true false) = some (bounding true false) ∧
    ran (.generatorBoundary z 0) s (fun t => t.gens[0].frame == some 21 && t.gens[0].next == some ⟨22, 880000000, 80000000 + 2 * 39999995⟩
      && t.timecode.lastWord.isSome) = true ∧
    ran (.generatorBoundary z 1) s (fun t => t.gens[1].state == .running) = true ∧
    ((set.rate.shortest : Int) ≤ Int.tdiv (((set.boundaryTime 22 : Int) - 840000005) * 1000000000) 1000000000 ∧
      Int.tdiv (((set.boundaryTime 21 : Int) - 840000005) * 1000000000) 1000000000 < set.rate.shortest) ∧
    ran (.generatorBoundary z 0) (bounding false true) (fun t => t.gens[0].frame == some 21 && t.gens[0].rephaseCount == 1) = true ∧
    (s.timecode.binding = some 0 ∧ ran (.generatorBoundary z 0) s (fun t =>
      t.timecode.lastWord == some (timecodeWord ⟨0, 0, 0, 21, false, false⟩ 2) && t.timecode.level 80000000 == false
        && t.timecode.level (80000000 + 500 * 21) && !t.timecode.level (80000000 + 16000)) = true) ∧
    ran (.generatorBoundary z 2) s (fun t => t.gens[2].state == .armed) = true ∧
    ran (.generatorBoundary z 2) ((bounding false false).setStation { s.station with state := .joining }) (fun t =>
      t.gens[2].state == .off) = true := by decide +kernel

/-- AnchorPulseTaken: ignored, unlabelled, first, agreeing at 1,000 ns with a streak of 2, and beyond. -/
theorem test_AnchorPulseTaken : let s := at' .agreed (some 5000000000)
    let with' := fun (label : Option Nat) (o : Option Int) (streak : Nat) (valid : Bool) =>
      s.setAnchor { s.anchor with label := label, offset := o, streak := streak, valid := valid }
    (State.reset.elapse z).configured = false ∧ ((at' .listen none).elapse z).reading = none ∧
    ran (.anchorPulse z) (with' none none 0 false) (fun t => t.notices.records[18].isSome) = true ∧
    ran (.anchorPulse z) (with' (some 5) none 0 false) (fun t => t.anchor.streak == 1 && t.anchor.offset == some 0) = true ∧
    ran (.anchorPulse z) (with' (some 5) (some 1000) 2 false) (fun t => t.anchor.valid && t.anchor.streak == 3) = true ∧
    ran (.anchorPulse z) (with' (some 5) (some 1001) 3 true) (fun t => !t.anchor.valid && t.anchor.streak == 1) = true := by
  decide +kernel

/-- TimedEventsTaken: each event at its instant and just before. -/
theorem test_TimedEventsTaken : let s := at' .agreed (some 5000000000)
    let changing := fun (n : Nat) => s.setAnchor { s.anchor with change := some ⟨60, n, .originated⟩ }
    let silent := fun (n : Nat) => s.setAnchor { s.anchor with offset := some 1, valid := true, silence := n }
    let slewing := fun (n : Nat) => s.setDiscipline { s.discipline with slew := some ⟨1, 0, n⟩ }
    let high := fun (n : Nat) => s.setGens (put s.gens 1 { Generator.reset with pinHighUntil := some n })
    let word := fun (n : Nat) => s.setTimecode { s.timecode with output := some ⟨0, n⟩ }
    ran (.labelApplied z) (changing 5) (fun t => t.anchor.labelOffset == 60) = true ∧ left (.labelApplied z) (changing 6) = some (changing 6) ∧
    ran (.anchorSilence z) (silent (3000000000 * 1000000000)) (fun t => !t.anchor.valid) = true ∧
    left (.anchorSilence z) (silent (3000000000 * 1000000000 - 1)) = some (silent (3000000000 * 1000000000 - 1)) ∧
    ran (.slewSpent z) (slewing (5000000000 * 1000000000)) (fun t => t.discipline.slew.isNone) = true ∧
    ran (.pinLowAgain z 1) (high 0) (fun t => t.gens[1].pinHighUntil.isNone) = true ∧ left (.pinLowAgain z 1) (high 1) = some (high 1) ∧
    ran (.timecodeWordSent z) (word 0) (fun t => t.timecode.output.isNone) = true ∧ left (.timecodeWordSent z) (word 1) = some (word 1) := by
  decide +kernel

/-- A station at the end of a supervisor window, with what XO has shown. -/
def windowed (st : StationState) (ref : Bool) (xo : SourceRecord) : State :=
  let s := at' st (if st.transmits then some r100 else none)
  s.setSource { s.source with
    xo := xo, windowTimer := 32000, ref := if ref then ⟨true, .healthy, 16, 0, 20200, true⟩ else ⟨false, .disabled, 0, 0, 0, false⟩ }

/-- SupervisorWindowJudges: too early, judged at the bounds of the count, switched, lost, lost in STANDBY, recovered. -/
theorem test_SupervisorWindowJudges :
    let fails : SourceRecord := ⟨true, .healthy, 16, 1, 49499, true⟩
    ((at' .agreed (some r100)).elapse z).source.windowTimer < 32000 ∧
    ran (.supervisorWindowEnd z) (windowed .agreed true ⟨true, .healthy, 15, 0, 49500, true⟩) (fun t => t.source.xo.good == 16) = true ∧
    ran (.supervisorWindowEnd z) (windowed .agreed true ⟨true, .learning, 15, 1, 50500, true⟩) (fun t => t.source.xo.health == .healthy) = true ∧
    ran (.supervisorWindowEnd z) (windowed .agreed true fails) (fun t => t.source.selected == .ref && t.source.synth == .relocking) = true ∧
    ran (.supervisorWindowEnd z) (windowed .agreed false fails) (fun t => t.station.state == .stalled) = true ∧
    ran (.supervisorWindowEnd z) (windowed .standby false fails) (fun t => t.station.state == .standby && t.source.synth == .off) = true ∧
    ran (.supervisorWindowEnd z) (windowed .stalled false ⟨true, .unhealthy, 15, 0, 50000, true⟩) (fun t => t.station.state == .starting) = true := by
  decide +kernel

/-- SupervisorWindowJudges: a failover from each state of the synthesizer, in STANDBY and in STALLED, and the notices. -/
theorem test_SupervisorWindowJudges_failover : let fails : SourceRecord := ⟨true, .healthy, 16, 1, 49499, true⟩
    let s := fun (st : StationState) (synth : SynthState) => let w := windowed st true fails;
      w.setSource { w.source with synth := synth, lockSource := if synth = .off then none else some .xo, unitTimer := some 9, lockCount := 9 }
    let early := (s .standby .off).setPort { Port.reset with record := some { cfg with earlyActivation := true } }
    let other := windowed .agreed true ⟨true, .healthy, 16, 0, 50000, true⟩
    let judged := fun (r : SourceRecord) => other.setSource { other.source with ref := r }
    (s .agreed .locked).source.lockSource = some .xo ∧ 32000 ≤ ((s .agreed .locked).elapse z).source.windowTimer ∧
    ran (.supervisorWindowEnd z) (s .agreed .locked) (fun t => t.source.coasting && t.discipline.coastMark && t.source.unitTimer == some 0
      && t.source.lockSource == some .ref && t.source.lockCount == 0 && shows t (.sourceFailed .xo .windows .switched)) = true ∧
    ran (.supervisorWindowEnd z) (s .agreed .relocking) (fun t => t.source.synth == .relocking && t.source.unitTimer == some 0) = true ∧
    ran (.supervisorWindowEnd z) (s .starting .locking) (fun t => t.source.synth == .locking && t.source.lockSource == some .ref) = true ∧
    ran (.supervisorWindowEnd z) (s .standby .locked) (fun t => t.source.synth == .off && t.source.selected == .ref) = true ∧
    ran (.supervisorWindowEnd z) early (fun t => t.source.synth == .locking && t.source.lockSource == some .ref) = true ∧
    ran (.supervisorWindowEnd z) (s .stalled .off) (fun t => t.station.state == .starting && t.source.lockSource == some .ref) = true ∧
    ran (.supervisorWindowEnd z) (judged ⟨true, .healthy, 16, 1, 19799, true⟩) (fun t => shows t (.sourceFailed .ref .windows .unselected)) = true ∧
    ran (.supervisorWindowEnd z) (judged ⟨true, .unhealthy, 15, 0, 19800, true⟩) (fun t => shows t (.sourceRestored .ref false)) = true := by
  decide +kernel

/-- SupervisorWindowJudges: in STANDBY a loss with a clock, and without a loss a lock begun for the clock or for early
activation, a lock that runs on, and a stop; in STALLED nothing but the window; and the anchor of a station that stalls. -/
theorem test_SupervisorWindowJudges_standby :
    let w := fun (st : StationState) (synth : SynthState) (ref : Bool) (xo : SourceRecord) => let s := windowed st ref xo;
      s.setSource { s.source with synth := synth, lockSource := if synth = .off then none else some .xo, lockCount := 9 }
    let fails : SourceRecord := ⟨true, .healthy, 16, 1, 49499, true⟩
    let passes : SourceRecord := ⟨true, .healthy, 16, 0, 50000, true⟩
    let after := fun (s : State) (p : State → Bool) => ran (.supervisorWindowEnd z) s p
    let begun := fun (t : State) => t.source.synth == .locking && t.source.lockSource == some .xo && t.source.lockCount == 0
      && t.source.unitTimer == some 0 && t.station.state == .standby
    (((carrying (w .standby .locked false fails)).elapse z).discipline.clock.isSome = true ∧
      ((w .standby .locked false fails).elapse z).discipline.clock = none) ∧
    after (carrying (w .standby .locked false fails)) (fun t => lostClock t && t.source.synth == .off && t.source.lockCount == 9) = true ∧
    after (w .standby .locked false fails) (fun t => t.source.synth == .off && t.source.lockSource == none) = true ∧
    after (early (w .standby .off false passes)) begun = true ∧
    after (carrying (w .standby .off false passes)) (fun t => begun t && t.anchor.valid) = true ∧
    after (early (w .standby .locking false passes)) (fun t => t.source.synth == .locking && t.source.lockCount == 9) = true ∧
    after (w .standby .locked false passes) (fun t => t.source.synth == .off && t.source.lockSource == none) = true ∧
    after (w .stalled .off false ⟨true, .unhealthy, 2, 0, 50000, true⟩) (fun t => t.station.state == .stalled && t.source.xo.good == 3) = true ∧
    after (carrying (w .agreed .locked false fails)) (fun t => t.station.state == .stalled && !t.anchor.valid
      && shows t (.anchorChanged false .clock)) = true := by
  decide +kernel

/-- A station whose lock has run for a time, LOCKING or RELOCKING. -/
def locking (st : StationState) (synth : SynthState) (count timer : Nat) (ref : Bool) : State :=
  let s := at' st (if st.transmits then some r100 else none)
  (s.setSource { s.source with
    synth := synth, lockCount := count, unitTimer := some timer, coasting := synth == .relocking
    ref := if ref then ⟨true, .healthy, 16, 0, 0, true⟩ else ⟨false, .disabled, 0, 0, 0, false⟩ }).setStation
      { s.station with lockTime := if st = .starting then some timer else none }

/-- LocksEnd: 2,047 and 2,048 cycles; 159,999 and 160,000 cycles of the RC in STARTING and of the unit lock timer. -/
theorem test_LocksEnd :
    left (.synthesizerLocked z) (locking .starting .locking 2047 5 true) = some (locking .starting .locking 2047 5 true) ∧
    ran (.synthesizerLocked z) (locking .starting .locking 2048 5 true) (fun t => t.station.state == .listen) = true ∧
    ran (.synthesizerLocked z) (locking .agreed .relocking 2048 5 true) (fun t => !t.source.coasting) = true ∧
    left (.noLock z) (locking .starting .locking 9 159999 true) = some (locking .starting .locking 9 159999 true) ∧
    ran (.noLock z) (locking .starting .locking 9 160000 true) (fun t => t.station.faultReason == .cause .noLock) = true ∧
    left (.lockTimeout z) (locking .agreed .relocking 9 159999 true) = some (locking .agreed .relocking 9 159999 true) ∧
    ran (.lockTimeout z) (locking .agreed .relocking 9 160000 true) (fun t => t.station.state == .starting && t.source.selected == .ref) = true ∧
    ran (.lockTimeout z) (locking .agreed .relocking 9 160000 false) (fun t => t.station.state == .stalled) = true ∧
    ran (.lockTimeout z) (locking .standby .locking 9 160000 true) (fun t => t.station.state == .standby) = true := by
  decide +kernel

/-- LocksEnd: NO_LOCK in a relock with a clock, with and without early activation, and in a lock with a clock kept and on a
source then UNHEALTHY; LOCK_TIMEOUT in STANDBY with a clock, to a HEALTHY other source, with and without early activation, and
without one. -/
theorem test_LocksEnd_standby : let relock := carrying (locking .starting .relocking 9 160000 true)
    let start := carrying (locking .starting .locking 9 160000 true)
    let stand := fun (ref : Bool) => carrying (locking .standby .locking 9 160000 ref)
    let begun := fun (x : Source) (t : State) => t.source.synth == .locking && t.source.lockSource == some x && t.source.lockCount == 0
      && t.source.unitTimer == some 0 && t.station.state == .standby
    ((relock.elapse z).source.lockSource = some .xo ∧ (relock.elapse z).discipline.clock.isSome = true ∧
      (relock.elapse z).station.lockTime = some 160000) ∧
    ran (.noLock z) relock (fun t => lostClock t && t.source.synth == .off && t.source.lockCount == 9) = true ∧
    ran (.noLock z) (early relock) (fun t => lostClock t && begun .xo t) = true ∧
    ran (.noLock z) start (fun t => t.reading == some r100 && t.anchor.valid && begun .xo t) = true ∧
    ran (.noLock z) (start.setSource { start.source with xo := ⟨true, .unhealthy, 0, 2, 0, true⟩ }) (fun t =>
      t.reading == some r100 && t.source.synth == .off) = true ∧
    ((stand true).elapse z).source.unitTimer = some 160000 ∧
    ran (.lockTimeout z) (stand true) (fun t => lostClock t && t.source.selected == .ref && t.source.synth == .off
      && shows t (.sourceFailed .xo .lock .switched)) = true ∧
    ran (.lockTimeout z) (early (stand true)) (fun t => lostClock t && begun .ref t) = true ∧
    ran (.lockTimeout z) (early (stand false)) (fun t => lostClock t && t.source.selected == .xo && t.source.synth == .off
      && shows t (.sourceFailed .xo .lock .lost)) = true ∧
    ran (.lockTimeout z) (locking .standby .locking 9 160000 true) (fun t => t.discipline.clock == none && !t.anchor.valid) = true := by
  decide +kernel

/-! #### What every step keeps -/

/-- BeaconsReadBack: a beacon at the ends of its ranges fits. -/
theorem test_BeaconsReadBack : Beacon.Fits ⟨.isolated, 31, 4294967295, 2 ^ 48 - 1, 31, -86400, some (-2147483648),
    some ⟨86400, 2 ^ 48 - 1⟩, [⟨0, 2147483647, 1⟩, ⟨30, -1, 0⟩]⟩ :=
  ⟨by decide, by decide, by decide, by decide, by rintro x ⟨⟩; decide, by rintro n ⟨⟩; decide, by decide, by decide, by decide,
    by decide⟩

/-- The invariants' hypotheses: a running station that steps satisfies what it should. -/
theorem test_invariants : let s := at' .agreed (some r100)
    s.discipline.RateOk ∧ s.notices.Ok ∧ s.peers.TagsDistinct ∧ (∃ t, step s = .next t) := by
  refine ⟨⟨by decide, by decide, by decide⟩, ?_, ?_, ⟨_, rfl⟩⟩
  · intro k r hr
    have h : ∀ k : Fin 27, (at' .agreed (some r100)).notices.records[k] = if k = 0 then some ⟨0, none, .restarted true⟩ else none := by
      decide +kernel
    have e : ∀ k : Fin 27, (at' .agreed (some r100)).notices.enables[k] = true := by decide +kernel
    rw [h] at hr
    split at hr
    · subst k; cases hr; exact ⟨rfl, e 0, by decide⟩
    · cases hr
  · intro i j n hi hj
    have h : ∀ i : Fin 32, ((at' .agreed (some r100)).peers.entries[i]).tag = if i = 5 then some 7 else none := by decide +kernel
    rw [h] at hi hj
    split at hi <;> split at hj <;> simp_all

/-- A LOCKED station in AGREED: Source Unit and station in order. -/
theorem test_invariants_station : (at' .agreed (some r100)).SourcesOk ∧ (at' .agreed (some r100)).StationOk :=
  ⟨⟨⟨⟨by decide, by decide, by decide⟩, ⟨by decide, by decide, by decide⟩, by decide, by decide, by decide⟩, by decide, by decide, by decide⟩,
    ⟨by decide, by decide, by decide, by decide, by decide, by decide, by decide, by decide, by decide,
      by rintro c ⟨⟩; decide, by decide⟩⟩

/-- The Peer Table of a configured station in order. -/
theorem test_invariants_peers : (at' .agreed (some r100)).PeersOk := by
  have h : ∀ i : Fin 32, (at' .agreed (some r100)).peers.entries[i] = if i = 5 then PeerEntry.own 7 else PeerEntry.empty := by
    decide +kernel
  refine ⟨fun i => ?_, fun i => ?_, fun i hi => ?_⟩
  · rw [h]; split
    · exact ⟨by decide, by decide, by decide, by rintro d ⟨⟩, by decide, by decide⟩
    · exact ⟨by decide, by decide, by decide, by rintro d ⟨⟩, by decide, by decide⟩
  · rw [h]
    have : (at' .agreed (some r100)).configured = true := rfl
    have : (at' .agreed (some r100)).config.slot = 5 := rfl
    split <;> simp_all [PeerEntry.own, PeerEntry.empty]
  · rw [h] at hi ⊢; split at hi
    · simp_all; rfl
    · cases hi

end Sys2Proof.Machine.Tests
end

section
/-! PROOFS. Echo selection (R13, R14): the walk's order, which entries are taken, and what the cut at 8 leaves behind. -/

namespace Sys2Proof.Machine

/-! ### The walk (R13) -/

/-- A slot's place in the walk: how far it lies above the echo pointer, wrapping. -/
theorem walk_pairwise (pointer : Fin 32) : (walk pointer).Pairwise fun i j => i - pointer < j - pointer := by
  have ascending : (List.finRange 32).Pairwise (· < ·) := List.pairwise_lt_finRange 32
  simpa [walk, List.pairwise_map] using ascending

theorem mem_walk (pointer i : Fin 32) : i ∈ walk pointer :=
  List.mem_map.mpr ⟨i - pointer, List.mem_finRange _, add_sub_cancel pointer i⟩

/-! ### Eligible entries (R13, R14) -/

theorem EntryState.occupied_iff (st : EntryState) :
    st.occupied = true ↔ st = .heard ∨ st = .counted ∨ st = .excluded := by
  cases st <;> decide

theorem LagAge.echoAge_eq_some_iff (a : LagAge) (n : Fin 2) :
    a.echoAge = some n ↔ (a = .zero ∧ n = 0) ∨ (a = .one ∧ n = 1) := by
  cases a <;> simp [LagAge.echoAge, eq_comm]

theorem echoFits_iff (x : Int) : echoFits x = true ↔ -2147483648 ≤ x ∧ x ≤ 2147483647 := by
  simp [echoFits]

/-- An entry is echoed exactly where it is occupied with a raw lag that is not stale and fits. -/
theorem PeerEntry.echo_eq_some_iff (p : PeerEntry) (i : Fin 32) (e : EchoEntry) :
    p.echo i = some e ↔ e.slot = i ∧ p.state.occupied = true ∧ p.rawLag = some e.lag ∧
      p.lagAge.echoAge = some e.age ∧ echoFits e.lag = true := by
  obtain ⟨slot, lag, age⟩ := e
  unfold PeerEntry.echo
  split
  next x n hlag hage =>
    rw [hlag, hage]
    constructor
    · intro h
      obtain ⟨ok, same⟩ := Option.ite_none_right_eq_some.mp h
      cases same
      simp_all
    · rintro ⟨rfl, occ, ⟨⟩, ⟨⟩, fits⟩
      simp_all
  next absent =>
    constructor
    · rintro ⟨⟩
    · rintro ⟨-, -, hlag, hage, -⟩
      exact (absent _ _ hlag hage).elim

/-! ### The selection (R13) -/

/-- The echoes of all eligible entries, in the order of the walk. -/
def PeerTable.eligibleEchoes (t : PeerTable) (pointer : Fin 32) : List EchoEntry :=
  (walk pointer).filterMap fun i => t.entries[i].echo i

theorem PeerTable.selectEchoes_eq_take (t : PeerTable) (pointer : Fin 32) :
    t.selectEchoes pointer = (t.eligibleEchoes pointer).take 8 := rfl

theorem PeerTable.mem_eligibleEchoes (t : PeerTable) (pointer : Fin 32) (e : EchoEntry) :
    e ∈ t.eligibleEchoes pointer ↔ t.entries[e.slot].echo e.slot = some e := by
  unfold PeerTable.eligibleEchoes
  rw [List.mem_filterMap]
  constructor
  · rintro ⟨i, -, h⟩
    obtain ⟨rfl, -⟩ := (PeerEntry.echo_eq_some_iff _ _ _).mp h
    exact h
  · exact fun h => ⟨e.slot, mem_walk pointer e.slot, h⟩

theorem PeerTable.eligibleEchoes_pairwise (t : PeerTable) (pointer : Fin 32) :
    (t.eligibleEchoes pointer).Pairwise fun e f => e.slot - pointer < f.slot - pointer := by
  refine (walk_pairwise pointer).filterMap _ fun i j before e he f hf => ?_
  obtain ⟨rfl, -⟩ := (PeerEntry.echo_eq_some_iff _ _ _).mp he
  obtain ⟨rfl, -⟩ := (PeerEntry.echo_eq_some_iff _ _ _).mp hf
  exact before

/-- In an ordered list, what the first `n` leave out lies behind `n` that are among them. -/
theorem mem_take_or_behind {α : Type} {R : α → α → Prop} {l : List α} (ordered : l.Pairwise R) (n : Nat) {x : α}
    (hx : x ∈ l) : x ∈ l.take n ∨ ((l.take n).length = n ∧ ∀ y ∈ l.take n, R y x) := by
  rw [← List.take_append_drop n l] at hx ordered
  obtain ⟨-, -, across⟩ := List.pairwise_append.mp ordered
  rcases List.mem_append.mp hx with taken | left
  · exact .inl taken
  · have longer : n < l.length := by
      have := List.length_pos_of_mem left
      rw [List.length_drop] at this
      omega
    exact .inr ⟨List.length_take_of_le longer.le, fun y hy => across y hy x left⟩

theorem PeerTable.selectEchoes_length_le (t : PeerTable) (pointer : Fin 32) : (t.selectEchoes pointer).length ≤ 8 :=
  List.length_take_le 8 _

theorem PeerTable.selectEchoes_pairwise (t : PeerTable) (pointer : Fin 32) :
    (t.selectEchoes pointer).Pairwise fun e f => e.slot - pointer < f.slot - pointer := by
  rw [selectEchoes_eq_take]
  exact (t.eligibleEchoes_pairwise pointer).take

/-- Every echo taken is of an entry R13 admits, with the lag and the age that entry holds (R14). -/
theorem PeerTable.echo_of_mem_selectEchoes {t : PeerTable} {pointer : Fin 32} {e : EchoEntry}
    (h : e ∈ t.selectEchoes pointer) : t.entries[e.slot].echo e.slot = some e := by
  rw [selectEchoes_eq_take] at h
  exact (t.mem_eligibleEchoes pointer e).mp (List.mem_of_mem_take h)

/-- An entry R13 admits is taken, or lies behind 8 that are. -/
theorem PeerTable.selectEchoes_complete {t : PeerTable} (pointer : Fin 32) {e : EchoEntry}
    (h : t.entries[e.slot].echo e.slot = some e) : e ∈ t.selectEchoes pointer ∨
      ((t.selectEchoes pointer).length = 8 ∧ ∀ f ∈ t.selectEchoes pointer, f.slot - pointer < e.slot - pointer) := by
  rw [selectEchoes_eq_take]
  exact mem_take_or_behind (t.eligibleEchoes_pairwise pointer) 8 ((t.mem_eligibleEchoes pointer e).mpr h)

/-! ### The echo pointer (R13) -/

@[simp] theorem pointerAfter_nil (pointer : Fin 32) : pointerAfter pointer [] = pointer := rfl

theorem pointerAfter_of_getLast? (pointer : Fin 32) {es : List EchoEntry} {e : EchoEntry} (h : es.getLast? = some e) :
    pointerAfter pointer es = e.slot + 1 := by
  simp [pointerAfter, h]

/-- Settles O29: the selection is the first 8 of the eligible echoes, which stand in the order of the walk. -/
theorem echoesSelected : Obligations.EchoesSelected := by
  intro t pointer es
  refine ⟨t.selectEchoes_length_le pointer, t.selectEchoes_pairwise pointer, ?_, ?_, ?_, ?_⟩
  · intro e he
    obtain ⟨-, occupied, lag, age, fits⟩ := (PeerEntry.echo_eq_some_iff _ _ _).mp (PeerTable.echo_of_mem_selectEchoes he)
    exact ⟨(EntryState.occupied_iff _).mp occupied, lag, (LagAge.echoAge_eq_some_iff _ _).mp age, (echoFits_iff _).mp fits⟩
  · intro i x p state lag fresh low high
    obtain ⟨n, age⟩ : ∃ n, p.lagAge.echoAge = some n := by
      cases h : p.lagAge with
      | zero => exact ⟨0, rfl⟩
      | one => exact ⟨1, rfl⟩
      | stale => exact absurd h fresh
    have eligible : p.echo i = some ⟨i, x, n⟩ := (PeerEntry.echo_eq_some_iff _ _ _).mpr
      ⟨rfl, (EntryState.occupied_iff _).mpr state, lag, age, (echoFits_iff x).mpr ⟨low, high⟩⟩
    have takenOrBehind := t.selectEchoes_complete pointer (e := ⟨i, x, n⟩) eligible
    exact takenOrBehind.imp_left fun taken => ⟨_, taken, rfl⟩
  · intro empty
    rw [empty, pointerAfter_nil]
  · exact fun e last => pointerAfter_of_getLast? pointer last

end Sys2Proof.Machine
end

section
/-! PROOFS. The own-slot beacon (R12, R29): an entry into STANDBY block by block, and the way a frame received in OPEN mode
takes to the Station Controller. -/

namespace Sys2Proof.Machine

/-! ### Every entry (R4, R21, R24, R25) -/

theorem State.move_station (st : StationState) (c : Cause) (s : State) : (s.move st c).station =
    { s.station with
      state := st, faultReason := s.station.faultReason.after st c, listenTimer := none, lockTime := none } := by
  simp [State.move]

theorem State.move_notices (st : StationState) (c : Cause) (s : State) :
    (s.move st c).notices = (s.raise (.stateChanged st c)).notices := by
  simp [State.move]

@[simp] theorem State.enterMode_mode (m : ReceptionMode) (s : State) : (s.enterMode m).link.mode = m := by
  cases m <;> rfl

theorem State.move_mode (st : StationState) (c : Cause) (s : State) : (s.move st c).link.mode = st.mode :=
  State.enterMode_mode ..

/-! ### Entry into STANDBY from LISTEN (R29, R125) -/

/-- Only a WITHDRAW gives up a lock in LISTEN (R38; log 53). -/
theorem State.abandonsLock_listen {s : State} {c : Cause} (listen : s.station.state = .listen) (other : c ≠ .withdrawn) :
    s.abandonsLock c = false := by
  simp [State.abandonsLock, listen, other]

section
variable {s : State} {c : Cause} (keeps : s.abandonsLock c = false)
include keeps

/-- An entry into STANDBY that gives up no lock leaves the Station Controller as the transition makes it. -/
theorem State.enterStandby_station_of_keeps : (s.enterStandby c).station = (s.move .standby c).station := by
  simp [State.enterStandby_of_keeps keeps]

theorem State.enterStandby_mode_of_keeps : (s.enterStandby c).link.mode = .off := by
  simp [State.enterStandby_of_keeps keeps, State.move_mode, StationState.mode]

theorem State.enterStandby_notices_of_keeps :
    (s.enterStandby c).notices = (s.raise (.stateChanged .standby c)).notices := by
  simp [State.enterStandby_of_keeps keeps, State.move_notices]

/-- An entry into STANDBY that gives up no lock keeps the agreed clock: slew and rate with it, and the anchor. -/
theorem State.enterStandby_discipline_of_keeps : (s.enterStandby c).discipline = s.discipline := by
  simp [State.enterStandby_of_keeps keeps]

theorem State.enterStandby_anchor_of_keeps : (s.enterStandby c).anchor = s.anchor := by
  simp [State.enterStandby_of_keeps keeps]

theorem State.enterStandby_reports_of_keeps : Reports s (s.enterStandby c) (.stateChanged .standby c) :=
  (Reports.raise s _).after (by rw [State.enterStandby_notices_of_keeps keeps])

end

/-! ### The own-slot beacon (R12, R29) -/

theorem exec_frameReceived (dt : Elapsed) (bytes : List Byte) (since : Nat) (s : State) :
    exec (.frameReceived dt bytes since) s = .next ((s.elapse dt).frameCompletes bytes ((s.elapse dt).markAt since)) := rfl

/-- In OPEN mode a frame with the own slot and another station's tag is an own-slot beacon, whatever its state field and
whoever else holds its tag (R12). -/
theorem State.openFrame_ownSlot {bytes : List Byte} {b : Beacon} {m : Mark} {s : State} (parsed : parseBeacon bytes = some b)
    (tag : b.tag ≠ s.config.tag) (slot : b.slot = s.config.slot) : s.openFrame bytes m = s.ownSlotBeacon b := by
  simp only [State.openFrame, parsed, if_neg tag, if_pos slot]

theorem State.ownSlotBeacon_of_listen {b : Beacon} {s : State} (listen : s.station.state = .listen) :
    s.ownSlotBeacon b = (s.enterStandby .slotTaken).raise (.slotConflict s.config.slot (some b.tag)) := if_pos listen

theorem State.ownSlotBeacon_of_not_listen {b : Beacon} {s : State} (elsewhere : s.station.state ≠ .listen) :
    s.ownSlotBeacon b = s := if_neg elsewhere

/-- Settles O26: the frame reaches the Station Controller as an own-slot beacon; in LISTEN it enters STANDBY with every lock
kept, and SLOT_CONFLICT, of another kind than STATE_CHANGED, is raised after it. -/
theorem ownSlotTaken : Obligations.OwnSlotTaken := by
  intro dt bytes since b s u m parsed coasting mode on tag slot
  have taken : exec (.frameReceived dt bytes since) s = .next (u.ownSlotBeacon b) := by
    rw [exec_frameReceived, State.frameCompletes_open coasting on mode, State.openFrame_ownSlot parsed tag slot]
  refine ⟨fun listen => ?_, fun elsewhere => ?_⟩
  · have keeps : u.abandonsLock .slotTaken = false := State.abandonsLock_listen listen (by decide)
    have enables : (u.enterStandby .slotTaken).notices.enables = u.notices.enables := by
      rw [State.enterStandby_notices_of_keeps keeps, raise_enables]
    rw [State.ownSlotBeacon_of_listen listen] at taken
    refine ⟨_, taken, ?state, ?fault, ?mode, ?timer, ?changed, (Reports.raise _ _).before enables, ?peers, ?discipline,
      ?agreement, ?anchor⟩
    case changed => exact (State.enterStandby_reports_of_keeps keeps).after (raise_record_other _ _ _ (show (1 : Fin 27) ≠ 5 by decide))
    case state | fault | timer =>
      simp only [State.raise_station, State.enterStandby_station_of_keeps keeps, State.move_station, FaultReason.after]
    case mode => rw [State.raise_link, State.enterStandby_mode_of_keeps keeps]
    case peers => simp
    case agreement => simp
    case discipline => rw [State.raise_discipline, State.enterStandby_discipline_of_keeps keeps]
    case anchor => rw [State.raise_anchor, State.enterStandby_anchor_of_keeps keeps]
  · rw [taken, State.ownSlotBeacon_of_not_listen elsewhere]

end Sys2Proof.Machine
end

section
/-! PROOFS. The hand-off of a good beacon (R46 to R53): what each stage of R47 changes, and which of its notices the
pending records show at its end. -/

namespace Sys2Proof.Machine

/-! ### Notices raised one after the other (R166) -/

theorem State.raiseAll_append (ms ns : List Notice) (s : State) :
    s.raiseAll (ms ++ ns) = (s.raiseAll ms).raiseAll ns := List.foldl_append

@[simp] theorem State.raiseAll_enables (ns : List Notice) (s : State) :
    (s.raiseAll ns).notices.enables = s.notices.enables := by
  induction ns generalizing s with
  | nil => rfl
  | cons n ns ih => rw [raiseAll_cons, ih, raise_enables]

/-- Notices of other kinds leave the record. -/
theorem State.raiseAll_record_other {ns : List Notice} {k : Fin 27} (others : ∀ n ∈ ns, k ≠ n.kind) (s : State) :
    (s.raiseAll ns).notices.records[k] = s.notices.records[k] := by
  induction ns generalizing s with
  | nil => rfl
  | cons n ns ih =>
    obtain ⟨head, tail⟩ := List.forall_mem_cons.mp others
    rw [raiseAll_cons, ih tail, raise_record_other n s k head]

/-- A notice of a list is reported where none of its kind comes after it. -/
theorem Reports.raiseAll (earlier : List Notice) (n : Notice) {later : List Notice}
    (others : ∀ m ∈ later, n.kind ≠ m.kind) (s : State) : Reports s (s.raiseAll (earlier ++ n :: later)) n := by
  rw [State.raiseAll_append, raiseAll_cons]
  have raised := Reports.raise (s.raiseAll earlier) n
  exact (raised.before (State.raiseAll_enables ..)).after (State.raiseAll_record_other others _)

/-! ### Stage 1: the tag (R46) -/

theorem PeerEntry.restarts_iff (p : PeerEntry) (tag : Nat) :
    p.restarts tag = true ↔ p.state.occupied = true ∧ p.tag ≠ some tag := by
  simp [PeerEntry.restarts]

theorem PeerEntry.restarts_eq_false_iff (p : PeerEntry) (tag : Nat) :
    p.restarts tag = false ↔ p.state.occupied = false ∨ p.tag = some tag := by
  rw [← Bool.not_eq_true, restarts_iff, not_and_or, Bool.not_eq_true, not_not]

theorem PeerEntry.takeTag_of_restarts {p : PeerEntry} {tag : Nat} (h : p.restarts tag = true) :
    p.takeTag tag = p.restart tag := if_pos h

theorem PeerEntry.takeTag_of_not_restarts {p : PeerEntry} {tag : Nat} (h : p.restarts tag = false) :
    p.takeTag tag = { p with tag := some tag } := by
  rw [takeTag, h, if_neg Bool.false_ne_true]

section
variable (p : PeerEntry) (tag : Nat)

@[simp] theorem PeerEntry.takeTag_delay : (p.takeTag tag).delay = if p.restarts tag then none else p.delay := by
  unfold takeTag; split <;> rfl

@[simp] theorem PeerEntry.takeTag_delayAge : (p.takeTag tag).delayAge = if p.restarts tag then 0 else p.delayAge := by
  unfold takeTag; split <;> rfl

/-- The results of the round before survive a restart (R46). -/
@[simp] theorem PeerEntry.takeTag_resultObservation : (p.takeTag tag).resultObservation = p.resultObservation := by
  unfold takeTag; split <;> rfl

@[simp] theorem PeerEntry.takeTag_resultDeviation : (p.takeTag tag).resultDeviation = p.resultDeviation := by
  unfold takeTag; split <;> rfl

end

/-! ### Stage 3: the raw lag -/

theorem PeerEntry.takeLag_eq (p : PeerEntry) (lag : Option Int) :
    p.takeLag lag = { p with rawLag := lag, lagAge := if lag.isSome then .zero else .stale } := by
  cases lag <;> rfl

/-! ### Stage 4: the delay sample (R52, R53) -/

section
variable {own : Fin 32} {hold : Nat} {lag : Option Int} {b : Beacon}

theorem delaySample_of_echo {x y : Int} (echo : b.echoOf own = some y) (stays : b.state ≠ .withdrawing) :
    delaySample own 0 (some x) b = some (Int.tdiv (x + y) 2) := by
  simp [delaySample, echo, stays]

theorem delaySample_of_no_echo (absent : lag = none ∨ b.echoOf own = none) : delaySample own hold lag b = none := by
  unfold delaySample
  split
  next lagHere echoHere => rcases absent with no | no <;> simp_all
  next => rfl

/-- A WITHDRAWING beacon gives no sample, nor does any while samples are held off (R52). -/
theorem delaySample_of_held_off (off : b.state = .withdrawing ∨ 0 < hold) : delaySample own hold lag b = none := by
  unfold delaySample
  split
  next =>
    refine if_neg fun ⟨stays, none_held⟩ => ?_
    rcases off with leaves | held
    · exact stays leaves
    · exact held.ne' none_held
  next => rfl

end

section
variable (p : PeerEntry)

@[simp] theorem PeerEntry.takeSample_none : p.takeSample none = p := rfl

theorem PeerEntry.takeSample_inside {x : Int} (low : 0 ≤ x) (high : x ≤ 5000) :
    p.takeSample (some x) = { p with delay := some (smoothDelay p.delay x.toNat), delayAge := 0 } := if_pos ⟨low, high⟩

theorem PeerEntry.takeSample_outside {x : Int} (outside : x < 0 ∨ 5000 < x) : p.takeSample (some x) = p :=
  if_neg (by omega)

end

/-- A sample changes the estimate and its age alone, by what they were. -/
theorem PeerEntry.takeSample_eq {p q : PeerEntry} (delay : q.delay = p.delay) (age : q.delayAge = p.delayAge)
    (sample : Option Int) :
    q.takeSample sample = { q with delay := (p.takeSample sample).delay, delayAge := (p.takeSample sample).delayAge } := by
  cases sample with
  | none => rw [takeSample_none, takeSample_none, ← delay, ← age]
  | some x =>
    by_cases inside : 0 ≤ x ∧ x ≤ 5000
    · rw [takeSample_inside q inside.1 inside.2, takeSample_inside p inside.1 inside.2, delay]
    · have outside : x < 0 ∨ 5000 < x := by omega
      rw [takeSample_outside q outside, takeSample_outside p outside, ← delay, ← age]

theorem smoothDelay_none (x : Nat) : smoothDelay none x = x := rfl

theorem smoothDelay_some {x : Int} (low : 0 ≤ x) (d : Nat) :
    smoothDelay (some d) x.toNat = ((d : Int) + Int.tdiv (x - d) 8).toNat := by
  rw [smoothDelay, Int.toNat_of_nonneg low]

theorem sampleNotices_outside (slot : Fin 32) {x : Int} (outside : x < 0 ∨ 5000 < x) :
    sampleNotices slot (some x) = [.delayRange slot x] := if_neg (by omega)

/-- A sample raises no notice of another kind than DELAY_RANGE (R53). -/
theorem kind_of_mem_sampleNotices {slot : Fin 32} {sample : Option Int} {n : Notice} (h : n ∈ sampleNotices slot sample) :
    n.kind = 14 := by
  cases sample with
  | none => cases h
  | some x =>
    obtain ⟨-, mem⟩ := List.mem_ite_nil_left.mp h
    rw [List.mem_singleton.mp mem]
    rfl

/-! ### Stage 5: the judgement (R48) -/

theorem judge_withdrawing (window : Nat) (lag : Option Int) (delay : Option Nat) :
    judge window .withdrawing lag delay = (.leaving, none) := by
  cases lag <;> cases delay <;> rfl

section
variable {st : PeerState} (stays : st ≠ .withdrawing) (window : Nat)
include stays

theorem judge_without_lag (delay : Option Nat) : judge window st none delay = (.good, none) := by
  cases st with
  | withdrawing => exact absurd rfl stays
  | _ => rfl

theorem judge_with_estimate (x : Int) (d : Nat) : judge window st (some x) (some d) =
    (if ((d : Int) - x).natAbs ≤ window then .good else .wild, some ((d : Int) - x)) := by
  cases st with
  | withdrawing => exact absurd rfl stays
  | _ => simp only [judge]; split <;> rfl

theorem judge_without_estimate (x : Int) : judge window st (some x) none =
    (if x.natAbs ≤ window + 5000 then .good else .wild, none) := by
  cases st with
  | withdrawing => exact absurd rfl stays
  | _ => simp only [judge]; split <;> rfl

end

/-! ### The hand-off as one update (R47) -/

/-- Stages 2 to 5 on the entry that stage 1 leaves: the observation is judged on the estimate that stage 4 leaves. -/
theorem PeerEntry.handOff_eq (own : Fin 32) (window hold : Nat) (lag : Option Int) (b : Beacon) (p : PeerEntry) :
    p.handOff own window hold lag b =
      let tagged := p.takeTag b.tag
      let sampled := tagged.takeSample (delaySample own hold lag b)
      let judged := judge window b.state lag sampled.delay
      { tagged with
        peerState := some b.state, counted := some b.counted, labelOffset := some b.labelOffset, notice := b.notice
        anchored := b.anchorOffset.isSome, anchorOffset := b.anchorOffset
        rawLag := lag, lagAge := if lag.isSome then .zero else .stale
        delay := sampled.delay, delayAge := sampled.delayAge, observation := judged.1, deviation := judged.2 } := by
  rw [handOff, takeLag_eq]
  simp only [takeSample_eq (p := p.takeTag b.tag)
    (q := { (p.takeTag b.tag).takeFields b with rawLag := _, lagAge := _ }) rfl rfl]
  rfl

section
variable {own : Fin 32} {window hold : Nat} {lag : Option Int} {b : Beacon} {p : PeerEntry}

/-- Where no sample is taken, the estimate and its age are those that stage 1 leaves. -/
theorem PeerEntry.handOff_estimate_of_no_sample
    (left : (p.takeTag b.tag).takeSample (delaySample own hold lag b) = p.takeTag b.tag) :
    (p.handOff own window hold lag b).delay = (if p.restarts b.tag then none else p.delay) ∧
      (p.handOff own window hold lag b).delayAge = if p.restarts b.tag then 0 else p.delayAge := by
  simp only [handOff_eq, left, takeTag_delay, takeTag_delayAge, and_self]

/-- A sample from 0 to 5,000 ns makes a fresh estimate (R53). -/
theorem PeerEntry.handOff_estimate_of_sample {x : Int} (sample : delaySample own hold lag b = some x) (low : 0 ≤ x)
    (high : x ≤ 5000) : (p.handOff own window hold lag b).delay =
        some (smoothDelay (if p.restarts b.tag then none else p.delay) x.toNat) ∧
      (p.handOff own window hold lag b).delayAge = 0 := by
  simp only [handOff_eq, sample, takeSample_inside _ low high, takeTag_delay, and_self]

/-- The judgement of a hand-off is made on the estimate that it leaves (R47, R48). -/
theorem PeerEntry.handOff_judgement : let q := p.handOff own window hold lag b
    q.observation = (judge window b.state lag q.delay).1 ∧ q.deviation = (judge window b.state lag q.delay).2 := by
  simp only [handOff_eq, and_self]

end

/-! ### The notices of a hand-off (R46, R53, R64) -/

theorem handOffNotices_of_restarts {b : Beacon} {p : PeerEntry} {n : Nat} (restarts : p.restarts b.tag = true)
    (held : p.tag = some n) (slot own : Fin 32) (hold : Nat) (lag : Option Int) :
    handOffNotices slot own hold lag b p = .peerLost slot n :: sampleNotices slot (delaySample own hold lag b) := by
  rw [handOffNotices, if_pos restarts, held]
  rfl

theorem handOffNotices_of_outside {own : Fin 32} {hold : Nat} {lag : Option Int} {b : Beacon} {x : Int}
    (sample : delaySample own hold lag b = some x) (outside : x < 0 ∨ 5000 < x) (slot : Fin 32) (p : PeerEntry) :
    ∃ earlier, handOffNotices slot own hold lag b p = earlier ++ [.delayRange slot x] := by
  rw [handOffNotices, sample, sampleNotices_outside slot outside]
  exact ⟨_, rfl⟩

section
variable {slot : Fin 32} {lag : Option Int} {b : Beacon} {s : State}

/-- A hand-off reports each of its notices that no other of the kind follows. -/
theorem State.handToPeer_reports {earlier later : List Notice} {n : Notice}
    (notices : handOffNotices slot s.config.slot s.peers.hold lag b s.peers.entries[slot] = earlier ++ n :: later)
    (others : ∀ m ∈ later, n.kind ≠ m.kind) : Reports s (s.handToPeer slot lag b) n := by
  simp only [State.handToPeer, notices]
  exact (Reports.raiseAll earlier n others _).before rfl

theorem State.handToPeer_reports_peerLost {n : Nat} (restarts : (s.peers.entries[slot]).restarts b.tag = true)
    (held : (s.peers.entries[slot]).tag = some n) : Reports s (s.handToPeer slot lag b) (.peerLost slot n) :=
  State.handToPeer_reports (earlier := []) (handOffNotices_of_restarts restarts held ..) fun m hm => by
    rw [kind_of_mem_sampleNotices hm]
    exact (by decide : (11 : Fin 27) ≠ 14)

theorem State.handToPeer_reports_delayRange {x : Int}
    (sample : delaySample s.config.slot s.peers.hold lag b = some x) (outside : x < 0 ∨ 5000 < x) :
    Reports s (s.handToPeer slot lag b) (.delayRange slot x) := by
  obtain ⟨earlier, last⟩ := handOffNotices_of_outside sample outside slot s.peers.entries[slot]
  exact State.handToPeer_reports last (List.forall_mem_nil _)

end

/-! ### The statements -/

/-- Settles O22: stages 1 to 3 are read off the hand-off as one update; the observation goes by the rows of R48, on whatever
estimate stage 4 leaves. -/
theorem handOffStages : Obligations.HandOffStages := by
  refine ⟨?entry, ?lost⟩
  case entry =>
    intro own window hold lag b p q
    have whole := PeerEntry.handOff_eq own window hold lag b p
    obtain ⟨observation, deviation⟩ : q.observation = (judge window b.state lag q.delay).1 ∧
      q.deviation = (judge window b.state lag q.delay).2 := PeerEntry.handOff_judgement
    refine ⟨PeerEntry.handOff_tag .., congrArg (·.peerState) whole, congrArg (·.counted) whole,
      congrArg (·.labelOffset) whole, congrArg (·.notice) whole, congrArg (·.anchorOffset) whole,
      congrArg (·.anchored) whole, congrArg (·.rawLag) whole, fun known => ?fresh, fun absent => ?stale,
      ⟨?resultObservation, ?resultDeviation⟩, fun occupied other => ?restart, fun keeps => ?same, fun leaves => ?leaving,
      fun stays => ⟨fun absent => ?withoutLag, fun x d known estimate => ?withEstimate,
        fun x known unestimated => ?withoutEstimate⟩⟩
    case fresh => exact (congrArg (·.lagAge) whole).trans (if_pos known)
    case stale => exact (congrArg (·.lagAge) whole).trans (if_neg (by simp [absent]))
    case resultObservation => exact (congrArg (·.resultObservation) whole).trans (p.takeTag_resultObservation b.tag)
    case resultDeviation => exact (congrArg (·.resultDeviation) whole).trans (p.takeTag_resultDeviation b.tag)
    case restart =>
      have restarts : p.restarts b.tag = true := (p.restarts_iff b.tag).mpr ⟨occupied, other⟩
      rw [PeerEntry.takeTag_of_restarts restarts] at whole
      exact ⟨congrArg (·.state) whole, congrArg (·.goodStreak) whole, congrArg (·.wildStreak) whole,
        congrArg (·.absentStreak) whole⟩
    case same =>
      have goesOn : p.restarts b.tag = false := (p.restarts_eq_false_iff b.tag).mpr keeps
      rw [PeerEntry.takeTag_of_not_restarts goesOn] at whole
      exact ⟨congrArg (·.state) whole, congrArg (·.goodStreak) whole, congrArg (·.wildStreak) whole,
        congrArg (·.absentStreak) whole⟩
    case leaving =>
      rw [leaves, judge_withdrawing] at observation deviation
      refine ⟨observation, deviation, (PeerEntry.handOff_estimate_of_no_sample ?_).1⟩
      rw [delaySample_of_held_off (.inl leaves), PeerEntry.takeSample_none]
    case withoutLag =>
      rw [absent, judge_without_lag stays] at observation deviation
      exact ⟨observation, deviation⟩
    case withEstimate =>
      rw [known, estimate, judge_with_estimate stays] at observation deviation
      exact ⟨deviation, fun near => observation.trans (if_pos near), fun far => observation.trans (if_neg far.not_ge)⟩
    case withoutEstimate =>
      rw [known, unestimated, judge_without_estimate stays] at observation deviation
      exact ⟨deviation, fun near => observation.trans (if_pos near), fun far => observation.trans (if_neg far.not_ge)⟩
  case lost =>
    intro s slot lag b n p occupied held other
    have restarts : p.restarts b.tag = true :=
      (p.restarts_iff b.tag).mpr ⟨p.state.occupied_iff.mpr occupied, by simp [held, other]⟩
    exact State.handToPeer_reports_peerLost restarts held

/-- Settles O23: with no echo, or with samples held off, stage 4 finds no sample; one outside 0 to 5,000 ns is reported
and not taken; any other makes the estimate by R53. -/
theorem delaySampleSmoothed : Obligations.DelaySampleSmoothed := by
  intro own window hold p held heldAge
  refine ⟨fun lag b absent => ?_, ?_⟩
  · refine PeerEntry.handOff_estimate_of_no_sample ?_
    rw [delaySample_of_no_echo absent, PeerEntry.takeSample_none]
  intro x y b q sample echo
  refine ⟨?taken, ?left, ?reported⟩
  case taken =>
    rintro stays rfl low high
    obtain ⟨delay, age⟩ : q.delay = some (smoothDelay (held b.tag) sample.toNat) ∧ q.delayAge = 0 :=
      PeerEntry.handOff_estimate_of_sample (delaySample_of_echo echo stays) low high
    refine ⟨age, fun fresh => ?_, fun d estimate => ?_⟩
    · rw [delay, fresh, smoothDelay_none]
    · rw [← smoothDelay_some low d, delay, estimate]
      exact ⟨rfl, fun small => smoothDelay_le (fun e he => by cases he; exact small) (by omega)⟩
  case left =>
    intro without
    refine PeerEntry.handOff_estimate_of_no_sample ?_
    by_cases off : b.state = .withdrawing ∨ 0 < hold
    · rw [delaySample_of_held_off off, PeerEntry.takeSample_none]
    · obtain ⟨stays, here⟩ := not_or.mp off
      obtain rfl : hold = 0 := by omega
      have outside : sample < 0 ∨ 5000 < sample := (without.resolve_left stays).resolve_left here
      rw [delaySample_of_echo echo stays, PeerEntry.takeSample_outside _ outside]
  case reported =>
    rintro stays - outside slot s rfl here
    refine State.handToPeer_reports_delayRange ?_ outside
    rw [here]
    exact delaySample_of_echo echo stays

end Sys2Proof.Machine
end

section
/-! PROOFS. The agreement point (R67 to R69, R72, R73): who contributes to a round, and what trimming keeps of the sorted
deviations. -/

namespace Sys2Proof.Machine

/-! ### Contributors (R67 to R69) -/

theorem State.beforeJoiningStep_iff {s : State} :
    s.beforeJoiningStep = true ↔ s.station.state = .joining ∧ s.discipline.joiningStepTaken = false := by
  simp [State.beforeJoiningStep]

/-- A slot enters the contributor set once. -/
theorem State.contributors_nodup (s : State) : s.contributors.Nodup := (List.nodup_finRange 32).filter _

/-- A contributor's round result carries a deviation (R68). -/
theorem State.resultDeviation_isSome_of_mem_contributors {s : State} {i : Fin 32} (h : i ∈ s.contributors) :
    (s.peers.entries[i]).resultDeviation.isSome = true := by
  obtain ⟨-, -, deviates, -⟩ := PeerEntry.contributes_iff.mp (State.mem_contributors.mp h)
  exact deviates

/-- The deviation list holds one value for each contributor and one for SELF (R69). -/
theorem State.length_deviationList (s : State) : s.deviationList.length = s.contributors.length + 1 :=
  congrArg (· + 1) (List.filterMap_length_eq_length.mpr fun _ => State.resultDeviation_isSome_of_mem_contributors)

/-! ### Greatest minus least -/

section
variable {l : List Int} (ne : l ≠ [])
include ne

theorem extent_eq : extent l = l.getLast ne - l.head ne := by
  rw [extent, List.getLastD_eq_getLast?, List.getLast?_eq_some_getLast ne, List.headD_eq_head?_getD,
    List.head?_eq_some_head ne, Option.getD_some, Option.getD_some]

theorem extent_attained : ∃ x ∈ l, ∃ y ∈ l, extent l = x - y :=
  ⟨_, List.getLast_mem ne, _, List.head_mem ne, extent_eq ne⟩

end

/-- No two members of a sorted list are further apart than its ends. -/
theorem sub_le_extent {l : List Int} (sorted : l.Pairwise (· ≤ ·)) {x y : Int} (hx : x ∈ l) (hy : y ∈ l) :
    x - y ≤ extent l := by
  rw [extent_eq (List.ne_nil_of_mem hx)]
  exact sub_le_sub (sorted.rel_getLast hx) (sorted.rel_head hy)

/-! ### Trimming (R72) -/

/-- How many values are discarded at either end of a deviation list of `n` values (R72). -/
def trimCount (n : Nat) : Nat := (n - 1) / 4

/-- Two values discarded for every four leave at least one. -/
theorem two_mul_trimCount_lt {n : Nat} (pos : 0 < n) : 2 * trimCount n < n := by
  unfold trimCount; omega

/-- The values discarded as the lowest (R72). -/
def lowValues (devs : List Int) : List Int := (devs.insertionSort (· ≤ ·)).take (trimCount devs.length)

/-- The values discarded as the highest (R72). -/
def highValues (devs : List Int) : List Int :=
  (devs.insertionSort (· ≤ ·)).drop (devs.length - trimCount devs.length)

theorem keptValues_eq (devs : List Int) : keptValues devs =
    ((devs.insertionSort (· ≤ ·)).drop (trimCount devs.length)).take (devs.length - 2 * trimCount devs.length) := rfl

/-- Low, kept and high values together are the sorted deviations. -/
theorem low_append_kept_append_high {devs : List Int} (ne : devs ≠ []) :
    lowValues devs ++ keptValues devs ++ highValues devs = devs.insertionSort (· ≤ ·) := by
  have room := two_mul_trimCount_lt (List.length_pos_iff.mpr ne)
  have high : devs.length - trimCount devs.length =
      trimCount devs.length + (devs.length - 2 * trimCount devs.length) := by omega
  rw [keptValues_eq, lowValues, highValues, high, List.append_assoc, List.drop_take_append_drop, List.take_append_drop]

theorem length_lowValues (devs : List Int) : (lowValues devs).length = trimCount devs.length := by
  rw [lowValues, List.length_take, List.length_insertionSort]
  exact min_eq_left ((Nat.div_le_self ..).trans (Nat.sub_le ..))

theorem length_highValues (devs : List Int) : (highValues devs).length = trimCount devs.length := by
  rw [highValues, List.length_drop, List.length_insertionSort]
  exact Nat.sub_sub_self ((Nat.div_le_self ..).trans (Nat.sub_le ..))

theorem keptValues_sublist (devs : List Int) : (keptValues devs).Sublist (devs.insertionSort (· ≤ ·)) :=
  (List.take_sublist ..).trans (List.drop_sublist ..)

theorem keptValues_pairwise (devs : List Int) : (keptValues devs).Pairwise (· ≤ ·) :=
  (List.pairwise_insertionSort _ devs).sublist (keptValues_sublist devs)

theorem keptValues_ne_nil {devs : List Int} (ne : devs ≠ []) : keptValues devs ≠ [] := by
  have room := two_mul_trimCount_lt (List.length_pos_iff.mpr ne)
  refine List.length_pos_iff.mp ?_
  rw [keptValues_eq, List.length_take, List.length_drop, List.length_insertionSort]
  omega

/-! ### The statement -/

/-- Settles O44: the contributors by the conditions of R68, the deviation list by their number, and the kept values as the
middle of the sorted list, whose ends are its greatest and least. -/
theorem estimateTrimmed : Obligations.EstimateTrimmed := by
  refine ⟨fun s => ⟨fun i => ?contributes, s.contributors_nodup, .refl _, s.length_deviationList⟩, fun devs ne => ?estimate⟩
  case contributes =>
    rw [State.mem_contributors, PeerEntry.contributes_iff, State.beforeJoiningStep_iff]
  case estimate =>
    refine ⟨lowValues devs, highValues devs, ?perm, ?sorted, length_lowValues devs, length_highValues devs, rfl,
      fun x hx y hy => sub_le_extent (keptValues_pairwise devs) hx hy, extent_attained (keptValues_ne_nil ne)⟩
    case perm => rw [low_append_kept_append_high ne]; exact List.perm_insertionSort _ devs
    case sorted => rw [low_append_kept_append_high ne]; exact List.pairwise_insertionSort _ devs

end Sys2Proof.Machine
end

section
/-! PROOFS. A rising edge of the anchor input (R103, R105): the anchor after a labelled capture by what it held before,
and the notice its validity calls for. -/

namespace Sys2Proof.Machine

/-! ### The anchor after a labelled capture (R105) -/

theorem Anchor.agrees_of_none {a : Anchor} (absent : a.offset = none) (sample : Int) : a.agrees sample = false := by
  simp [Anchor.agrees, absent]

theorem Anchor.agrees_iff_of_some {a : Anchor} {held : Int} (holds : a.offset = some held) (sample : Int) :
    a.agrees sample = true ↔ (sample - held).natAbs ≤ 1000 := by
  simp [Anchor.agrees, holds]

/-- The first capture starts a streak and says nothing of validity. -/
theorem Anchor.captured_of_none {a : Anchor} (absent : a.offset = none) (sample : Int) : a.captured sample =
    { a with label := none, silence := 0, offset := some sample, streak := 1 } := by
  simp [Anchor.captured, Anchor.agrees_of_none absent, absent]

/-- A capture that agrees makes a streak of 3 out of one of 2, and with it the anchor valid. -/
theorem Anchor.captured_of_agrees {a : Anchor} {sample : Int} (agrees : a.agrees sample = true) : a.captured sample =
    { a with
      label := none, silence := 0, offset := some sample, streak := min 3 (a.streak + 1)
      valid := a.valid || decide (2 ≤ a.streak) } := by
  have third : (min 3 (a.streak + 1) == 3) = decide (2 ≤ a.streak) := by
    rw [beq_eq_decide, decide_eq_decide]; omega
  simp only [Anchor.captured, agrees, if_pos, third]

/-- A capture beyond the tolerance starts the streak again and leaves the anchor invalid. -/
theorem Anchor.captured_of_differs {a : Anchor} {held sample : Int} (holds : a.offset = some held)
    (differs : 1000 < (sample - held).natAbs) : a.captured sample =
    { a with label := none, silence := 0, offset := some sample, streak := 1, valid := false } := by
  have beyond : a.agrees sample = false :=
    Bool.eq_false_iff.mpr fun h => Nat.not_le.mpr differs ((Anchor.agrees_iff_of_some holds sample).mp h)
  simp [Anchor.captured, beyond, holds]

/-! ### A labelled capture (R105) -/

/-- The label's second against the reading at the edge (R105). -/
def anchorSample (second t : Nat) : Int := (second : Int) * 1000000000 - t

/-- The sample as it stands in `State.capture` once the ns of a second are written out. -/
theorem anchorSample_eq (second t : Nat) : (second : Int) * 1000000000 - t = anchorSample second t := rfl

theorem State.capture_anchor (second t : Nat) (s : State) :
    (s.capture second t).anchor = s.anchor.captured (anchorSample second t) := by
  simp only [State.capture]
  repeat' split
  all_goals simp [anchorSample_eq]

/-- A labelled capture touches the anchor and the notices only. -/
theorem State.capture_frame (second t : Nat) (s : State) : s.capture second t =
    (s.setAnchor (s.capture second t).anchor).setNotices (s.capture second t).notices := by
  simp only [State.capture]
  repeat' split
  all_goals rfl

theorem Reports.raise_setAnchor (s : State) (x : Anchor) (n : Notice) : Reports s ((s.setAnchor x).raise n) n :=
  (Reports.raise _ n).before rfl

section
variable {second t : Nat} {s : State}

/-- ANCHOR_CHANGED tells of an anchor that becomes valid (R105). -/
theorem State.capture_reports_streak (before : s.anchor.valid = false)
    (after : (s.capture second t).anchor.valid = true) :
    Reports s (s.capture second t) (.anchorChanged true .streak) := by
  rw [State.capture_anchor] at after
  have raised : s.capture second t =
      (s.setAnchor (s.anchor.captured (anchorSample second t))).raise (.anchorChanged true .streak) := by
    simp [State.capture, anchorSample_eq, before, after]
  rw [raised]
  exact Reports.raise_setAnchor s _ _

/-- ANCHOR_CHANGED tells of an anchor that a pulse makes invalid (R105). -/
theorem State.capture_reports_tolerance (before : s.anchor.valid = true)
    (after : (s.capture second t).anchor.valid = false) :
    Reports s (s.capture second t) (.anchorChanged false .tolerance) := by
  rw [State.capture_anchor] at after
  have raised : s.capture second t =
      (s.setAnchor (s.anchor.captured (anchorSample second t))).raise (.anchorChanged false .tolerance) := by
    simp [State.capture, anchorSample_eq, before, after]
  rw [raised]
  exact Reports.raise_setAnchor s _ _

/-- A capture that leaves the validity as it was raises nothing. -/
theorem State.capture_notices_of_valid_eq (same : (s.capture second t).anchor.valid = s.anchor.valid) :
    (s.capture second t).notices = s.notices := by
  rw [State.capture_anchor] at same
  simp [State.capture, anchorSample_eq, same]

end

/-! ### The edge (R103) -/

theorem exec_anchorPulse (dt : Elapsed) (s : State) : exec (.anchorPulse dt) s = .next (s.elapse dt).anchorPulse := rfl

theorem State.anchorPulse_of_ignored {s : State}
    (ignored : s.configured = false ∨ s.config.anchorEnabled = false ∨ s.reading = none) : s.anchorPulse = s := by
  rcases ignored with unconfigured | disabled | unread
  · simp [State.anchorPulse, unconfigured]
  · simp [State.anchorPulse, disabled]
  · simp [State.anchorPulse, unread]

section
variable {s : State} {a : Nat} (configured : s.configured = true) (enabled : s.config.anchorEnabled = true)
  (reading : s.reading = some a)
include configured enabled reading

theorem State.anchorPulse_of_unlabelled (unlabelled : s.anchor.label = none) :
    s.anchorPulse = s.raise (.anchorUnlabelled a) := by
  simp [State.anchorPulse, configured, enabled, reading, unlabelled]

theorem State.anchorPulse_of_labelled {second : Nat} (labelled : s.anchor.label = some second) :
    s.anchorPulse = s.capture second a := by
  simp [State.anchorPulse, configured, enabled, reading, labelled]

end

/-- Settles O51: the edge by R103, and for a labelled one the anchor by the offset it held: none, one the sample agrees
with, one it does not. -/
theorem anchorPulseTaken : Obligations.AnchorPulseTaken := by
  intro dt s u
  refine ⟨fun ignored => ?_, fun a configured enabled reading => ⟨fun unlabelled => ?_, ?_⟩⟩
  · rw [exec_anchorPulse, State.anchorPulse_of_ignored ignored]
  · rw [exec_anchorPulse, State.anchorPulse_of_unlabelled configured enabled reading unlabelled]
  · intro second labelled sample
    have anchor : (u.capture second a).anchor = u.anchor.captured sample := u.capture_anchor second a
    refine ⟨u.capture second a, ?taken, u.capture_frame second a, ?_⟩
    case taken => rw [exec_anchorPulse, State.anchorPulse_of_labelled configured enabled reading labelled]
    refine ⟨by rw [anchor]; rfl, by rw [anchor]; rfl, by rw [anchor]; rfl, by rw [anchor]; rfl, by rw [anchor]; rfl,
      fun absent => ?first, fun held holds near => ?agrees, fun held holds far => ?differs⟩
    case first =>
      rw [anchor, Anchor.captured_of_none absent]
      exact ⟨rfl, rfl⟩
    case agrees =>
      rw [Anchor.captured_of_agrees ((Anchor.agrees_iff_of_some holds sample).mpr near)] at anchor
      have valid : (u.capture second a).anchor.valid = true ↔ u.anchor.valid = true ∨ 2 ≤ u.anchor.streak := by
        simp [anchor]
      exact ⟨by rw [anchor], valid,
        fun invalid streak => State.capture_reports_streak invalid (valid.mpr (.inr streak))⟩
    case differs =>
      rw [Anchor.captured_of_differs holds far] at anchor
      have invalid : (u.capture second a).anchor.valid = false := by rw [anchor]
      exact ⟨by rw [anchor], invalid, fun was => State.capture_reports_tolerance was invalid,
        fun was => State.capture_notices_of_valid_eq (invalid.trans was.symm)⟩

end Sys2Proof.Machine
end

section
/-! PROOFS. Occurrences and the notice line (R166, R169): what raising a notice leaves as it was, and what the line shows of
the pending records. -/

namespace Sys2Proof.Machine

/-- Whether some place of a table of records is filled. -/
theorem any_isSome_toList_iff {α : Type} {n : Nat} (v : Vector (Option α) n) :
    v.toList.any Option.isSome = true ↔ ∃ k : Fin n, (v[k]).isSome = true := by
  rw [Vector.any_toList, Vector.any_eq_true, Fin.exists_iff]
  rfl

theorem State.noticeLine_iff (s : State) :
    s.noticeLine = true ↔ ∃ k : Fin 27, (s.notices.records[k]).isSome = true :=
  any_isSome_toList_iff s.notices.records

/-- An occurrence touches the records only. -/
theorem NoticeUnit.occur_frame (u : NoticeUnit) (n : Notice) (time : Option Nat) :
    u.occur n time = { u with records := (u.occur n time).records } := by
  unfold occur
  split
  · split <;> rfl
  · rfl

theorem NoticeUnit.occur_of_disabled {u : NoticeUnit} {n : Notice} (disabled : u.enables[n.kind] = false)
    (time : Option Nat) : u.occur n time = u := if_neg (by simp [disabled])

/-- Raising a notice touches the records of the Notice Unit only. -/
theorem State.raise_frame (n : Notice) (s : State) :
    s.raise n = s.setNotices { s.notices with records := (s.raise n).notices.records } :=
  congrArg s.setNotices (s.notices.occur_frame n s.reading)

theorem State.raise_of_disabled {s : State} {n : Notice} (disabled : s.notices.enables[n.kind] = false) :
    s.raise n = s := congrArg s.setNotices (NoticeUnit.occur_of_disabled disabled s.reading)

section
variable {s : State} {n : Notice} (enabled : s.notices.enables[n.kind] = true)
include enabled

theorem raise_record_of_none (absent : s.notices.records[n.kind] = none) :
    (s.raise n).notices.records[n.kind] = some ⟨0, s.reading, n⟩ := by
  rw [raise_record, if_pos ⟨enabled, rfl⟩, absent]
  rfl

theorem raise_record_of_some {r : PendingRecord} (held : s.notices.records[n.kind] = some r) :
    (s.raise n).notices.records[n.kind] = some ⟨min 255 (r.repeats + 1), r.time, n⟩ := by
  rw [raise_record, if_pos ⟨enabled, rfl⟩, held]
  rfl

end

/-- Settles O17: the line by the filled places, and an occurrence by the enable of its kind and the record held. -/
theorem occurrencesMerge : Obligations.OccurrencesMerge := by
  refine ⟨State.noticeLine_iff, fun s n => ⟨?disabled, ?recorded, ?merged, ?others, s.raise_frame n⟩⟩
  case disabled => exact State.raise_of_disabled
  case recorded => exact raise_record_of_none
  case merged => exact fun _ enabled held => raise_record_of_some enabled held
  case others => exact raise_record_other n s

end Sys2Proof.Machine
end

section
/-! PROOFS. NEXT_NOTICE (R168, R177): which place the Notice Unit takes, and the bytes of the response. -/

namespace Sys2Proof.Machine

/-! ### Lengths of fields and details (R173, R181) -/

@[simp] theorem length_bytesOf (n v : Nat) : (bytesOf n v).length = n := by
  induction n with
  | zero => rfl
  | succ k ih => simp [bytesOf, ih]

@[simp] theorem length_field (n v : Nat) : (field n v).length = n := by
  unfold field; split <;> simp

@[simp] theorem length_signedField (n : Nat) (x : Int) : (signedField n x).length = n := by
  unfold signedField; split <;> simp

@[simp] theorem length_timeField (t : Nat) : (timeField t).length = 10 := by simp [timeField]

@[simp] theorem length_changeBytes (c : Option LabelChange) : (changeBytes c).length = 11 := by
  cases c <;> simp [changeBytes]

/-- The detail of a notice has the length its kind has in R181. -/
theorem Notice.length_detail (n : Notice) : n.detail.length = detailLengths.getD n.kind.val 0 := by
  cases n with
  | slotConflict slot tag => cases tag <;> simp [detail, kind, detailLengths]
  | _ => simp [detail, kind, detailLengths, slotTag]

theorem Notice.length_detail_le (n : Notice) : n.detail.length ≤ 12 := by
  have fits : ∀ k : Fin 27, detailLengths.getD k.val 0 ≤ 12 := by decide
  rw [n.length_detail]
  exact fits n.kind

/-- A notice record has 25 bytes (R177). -/
theorem PendingRecord.length_bytes (r : PendingRecord) : r.bytes.length = 25 := by
  have fits := r.detail.length_detail_le
  simp [bytes, timeOption]
  omega

/-! ### A response without refusal (R177) -/

/-- A length below 256 stands in the second byte of its field. -/
theorem field_two_of_lt {v : Nat} (short : v < 256) : field 2 v = [0x00#8, BitVec.ofNat 8 v] := by
  have fits : v < 256 ^ 2 := by omega
  rw [field, if_pos fits]
  simp [bytesOf, Nat.div_eq_of_lt short]

/-- OK with data whose length fits one byte. -/
theorem Status.response_ok {data : List Byte} (short : data.length < 256) :
    Status.ok.response data = [0x00#8, 0x00#8, 0x00#8, BitVec.ofNat 8 data.length] ++ data := by
  rw [response, field_two_of_lt short]
  rfl

/-! ### The place taken (R168) -/

/-- No pending record comes before that of place `k`, by priority and among equals by index (R168). -/
def NoticeUnit.First (u : NoticeUnit) (k : Fin 27) : Prop :=
  ∀ j : Fin 27, u.records[j].isSome = true → j ≠ k →
    u.priorities[k] < u.priorities[j] ∨ (u.priorities[k] = u.priorities[j] ∧ k < j)

theorem NoticeUnit.First.priority_le {u : NoticeUnit} {j k : Fin 27} (first : u.First k)
    (pending : u.records[j].isSome = true) : u.priorities[k] ≤ u.priorities[j] := by
  by_cases same : j = k
  · exact same ▸ le_rfl
  · rcases first j pending same with higher | ⟨equal, -⟩
    · exact higher.le
    · exact equal.le

theorem NoticeUnit.First.le_of_priority_eq {u : NoticeUnit} {j k : Fin 27} (first : u.First k)
    (pending : u.records[j].isSome = true) (equal : u.priorities[j] = u.priorities[k]) : k ≤ j := by
  by_cases same : j = k
  · exact same.ge
  · rcases first j pending same with higher | ⟨-, below⟩
    · exact absurd equal higher.ne'
    · exact below.le

/-- The pending kind of least index among those of priority `p`. -/
def NoticeUnit.leastOf (u : NoticeUnit) (p : Fin 4) : Option (Fin 27) :=
  Fin.find? fun i => u.records[i].isSome && u.priorities[i] == p

theorem NoticeUnit.highest_eq (u : NoticeUnit) : u.highest = Fin.findSome? u.leastOf := by
  rw [Fin.findSome?_eq_findSome?_finRange]
  exact congrArg (List.findSome? · _) (funext fun _ => Fin.find?_eq_find?_finRange.symm)

theorem NoticeUnit.leastOf_eq_none_iff {u : NoticeUnit} {p : Fin 4} :
    u.leastOf p = none ↔ ∀ i : Fin 27, u.records[i].isSome = true → u.priorities[i] ≠ p := by
  simp [leastOf]

theorem NoticeUnit.leastOf_eq_some_iff {u : NoticeUnit} {p : Fin 4} {k : Fin 27} :
    u.leastOf p = some k ↔ (u.records[k].isSome = true ∧ u.priorities[k] = p) ∧
      ∀ j < k, u.records[j].isSome = true → u.priorities[j] ≠ p := by
  simp [leastOf]

theorem NoticeUnit.highest_of_none_pending {u : NoticeUnit} (empty : ∀ k : Fin 27, u.records[k] = none) :
    u.highest = none := by
  rw [highest_eq, Fin.findSome?_eq_none_iff]
  intro p
  rw [leastOf_eq_none_iff]
  intro i pending
  simp [empty i] at pending

/-- No place of a higher priority is pending, and none below `k` of the same. -/
theorem NoticeUnit.highest_of_first {u : NoticeUnit} {k : Fin 27} (pending : u.records[k].isSome = true)
    (first : u.First k) : u.highest = some k := by
  rw [highest_eq, Fin.findSome?_eq_some_iff]
  refine ⟨u.priorities[k], leastOf_eq_some_iff.mpr ⟨⟨pending, rfl⟩, fun j below held equal => ?least⟩,
    fun p above => leastOf_eq_none_iff.mpr fun i held equal => ?highest⟩
  case least => exact (first.le_of_priority_eq held equal).not_gt below
  case highest => exact (first.priority_le held).not_gt (equal ▸ above)

/-! ### The command (R168, R177) -/

/-- NEXT_NOTICE without parameters is never refused: it answers OK with the record taken. -/
theorem exec_nextNotice (dt : Elapsed) (s : State) : exec (.nextNotice dt []) s =
    .next (((s.request dt).setNotices (s.request dt).notices.take).answer .ok (s.request dt).noticeData) := rfl

theorem NoticeUnit.take_of_highest_none {u : NoticeUnit} (highest : u.highest = none) : u.take = u := by
  simp only [take, highest]

theorem NoticeUnit.take_of_highest {u : NoticeUnit} {k : Fin 27} (highest : u.highest = some k) :
    u.take = { u with records := put u.records k none } := by
  simp only [take, highest]

theorem State.noticeData_of_highest_none {s : State} (highest : s.notices.highest = none) : s.noticeData = [0xFF#8] := by
  simp only [noticeData, highest]

theorem State.noticeData_of_highest {s : State} {k : Fin 27} {r : PendingRecord} (highest : s.notices.highest = some k)
    (held : s.notices.records[k] = some r) : s.noticeData = r.bytes := by
  simp only [noticeData, highest, held, Option.map_some, Option.getD_some]

/-- Settles O15: with no record pending the answer is FFh; otherwise the record before which none comes is the one taken,
and its place alone is emptied. -/
theorem nextNoticeTakesHighest : Obligations.NextNoticeTakesHighest := by
  intro dt s q
  refine ⟨fun empty => ?none, fun k r held first => ?some⟩
  case none =>
    have highest : q.notices.highest = none := NoticeUnit.highest_of_none_pending empty
    rw [exec_nextNotice, State.noticeData_of_highest_none highest, NoticeUnit.take_of_highest_none highest]
    rfl
  case some =>
    have highest : q.notices.highest = some k := NoticeUnit.highest_of_first (by rw [held]; rfl) first
    have length : r.bytes.length = 25 := r.length_bytes
    have response : Status.ok.response r.bytes = [0x00#8, 0x00#8, 0x00#8, 0x19#8] ++ r.bytes := by
      rw [Status.response_ok (by omega), length]
    refine ⟨_, exec_nextNotice dt s, ?_⟩
    rw [State.noticeData_of_highest highest held, NoticeUnit.take_of_highest highest]
    refine ⟨response, ?cleared, fun j other => ?kept, rfl⟩
    case cleared => exact (put_get ..).trans (if_pos rfl)
    case kept => exact (put_get ..).trans (if_neg other.symm)

end Sys2Proof.Machine
end

section
/-! PROOFS. The step and the queue (R159; log 1), and the round end a forward step owes: no command leaves one owed
(R3; log 7). -/

namespace Sys2Proof.Machine

/-! ### The step -/

theorem step_cons {c : Instr} {rest : List Instr} {s : State} (h : s.pending = c :: rest) :
    step s = exec c (s.withPending rest) := by
  simp only [step, h]

theorem step_nil {s : State} (h : s.pending = []) : step s = .next s := by
  simp only [step, h]

/-- Settles O1: the two cases of the queue. -/
theorem frontCommandRuns : Obligations.FrontCommandRuns := ⟨fun _ _ _ => step_cons, fun _ => step_nil⟩

/-- What every command keeps is kept by a step, where it does not speak of the queue. -/
theorem step_keeps {P : State → Prop} (queue : ∀ s q, P s → P (s.withPending q))
    (command : ∀ c s t, P s → exec c s = .next t → P t) {s t : State} (h : P s) (he : step s = .next t) : P t := by
  cases hq : s.pending with
  | nil =>
    rw [step_nil hq] at he
    cases he
    exact h
  | cons c rest =>
    rw [step_cons hq] at he
    exact command _ _ _ (queue _ _ h) he

/-! ### The round end owed, operation by operation -/

section
variable (s : State)

@[simp] theorem State.enterMode_owed (m : ReceptionMode) : (s.enterMode m).link.owedRoundEnd = s.link.owedRoundEnd := by
  cases m <;> rfl

@[simp] theorem State.move_owed (st : StationState) (c : Cause) :
    (s.move st c).link.owedRoundEnd = s.link.owedRoundEnd := by
  simp [State.move]

@[simp] theorem State.openOccasion_owed : s.openOccasion.link.owedRoundEnd = s.link.owedRoundEnd := by
  rw [State.openOccasion_link]

@[simp] theorem State.follow_owed : s.follow.link.owedRoundEnd = s.link.owedRoundEnd := by
  unfold State.follow
  repeat' split
  all_goals rfl

@[simp] theorem State.select_owed (x : Source) : (s.select x).link.owedRoundEnd = s.link.owedRoundEnd :=
  State.follow_owed _

@[simp] theorem State.failover_owed : s.failover.link.owedRoundEnd = s.link.owedRoundEnd := by
  unfold State.failover
  split <;> simp

@[simp] theorem State.elapse_owed (e : Elapsed) : (s.elapse e).link.owedRoundEnd = s.link.owedRoundEnd := by
  simp only [State.elapse, State.tickClock]
  split <;> simp

@[simp] theorem State.enterListen_owed (c : Cause) : (s.enterListen c).link.owedRoundEnd = s.link.owedRoundEnd := by
  simp [State.enterListen]

@[simp] theorem State.enterWithdrawing_owed (c : Cause) :
    (s.enterWithdrawing c).link.owedRoundEnd = s.link.owedRoundEnd := by
  simp [State.enterWithdrawing]

end

/-- No round end is owed (R3; log 7). -/
def State.Settled (s : State) : Prop := s.link.owedRoundEnd = none

section
variable {s : State}

/-- Where a round end was owed, the last of those taken leaves none. -/
theorem State.settleOwed_settled (fuel : Nat) (s : State) : (s.settleOwed fuel).Settled := by
  induction fuel generalizing s with
  | zero =>
    unfold State.settleOwed
    split
    next none => exact none
    next => rfl
  | succ k ih =>
    unfold State.settleOwed
    split
    next none => exact none
    next => exact ih _

theorem State.Settled.of_owed {t : State} (h : s.Settled) (e : t.link.owedRoundEnd = s.link.owedRoundEnd) : t.Settled :=
  e.trans h

theorem State.Settled.raise (h : s.Settled) (n : Notice) : (s.raise n).Settled := h.of_owed (by simp)

theorem State.invalidateClock_settled (s : State) : s.invalidateClock.Settled := by
  simp [State.Settled, State.invalidateClock]

theorem State.Settled.loseClock (h : s.Settled) : s.loseClock.Settled := by
  unfold State.loseClock
  split
  · exact s.invalidateClock_settled.of_owed (by simp)
  · exact h

theorem State.Settled.enterStandby (h : s.Settled) (c : Cause) : (s.enterStandby c).Settled := by
  have moved : (s.move .standby c).withdrawGens.Settled := h.of_owed (by simp)
  have standby : ∀ {t : State}, t.Settled → t.standbyRule.Settled := fun ht => ht.of_owed (by simp)
  cases abandons : s.abandonsLock c with
  | true =>
    rw [State.enterStandby_of_abandons abandons]
    refine standby ?_
    have stopped : (s.move .standby c).withdrawGens.stopSynth.Settled := moved.of_owed (by simp)
    unfold State.abandonLock
    split
    · exact stopped.loseClock
    · exact stopped
  | false =>
    rw [State.enterStandby_of_keeps abandons]
    exact standby moved

theorem State.enterStalled_settled (s : State) : s.enterStalled.Settled :=
  ((s.move .stalled .source).stallLink.invalidateClock_settled).of_owed (by simp [State.enterStalled])

theorem State.Settled.enterStarting (h : s.Settled) (c : Cause) : (s.enterStarting c).Settled := by
  simp only [State.enterStarting]
  split
  · exact State.enterStalled_settled _
  · exact h.of_owed (by simp)

theorem State.Settled.actOnLoss (h : s.Settled) : s.actOnLoss.Settled := by
  unfold State.actOnLoss
  split
  · split
    · exact State.Settled.loseClock (h.of_owed (by simp))
    · exact h
    all_goals exact State.enterStalled_settled _
  · exact h

theorem State.Settled.actOnRecovery (h : s.Settled) : s.actOnRecovery.Settled := by
  unfold State.actOnRecovery
  split
  · exact h.enterStarting _
  · exact h

theorem State.Settled.standbyRuleHere (h : s.Settled) : s.standbyRuleHere.Settled := h.of_owed (by simp)

theorem State.Settled.collided (h : s.Settled) : s.collided.Settled := by
  unfold State.collided
  repeat' split
  · exact h.of_owed (by simp)
  · exact (h.enterStandby _).raise _
  · exact h

theorem State.stationReset_settled (busy : Bool) (s : State) : (s.stationReset busy).Settled := by
  simp [State.Settled, State.stationReset, State.linkAfterReset, Link.reset]

theorem State.Settled.request (h : s.Settled) (dt : Elapsed) : (s.request dt).Settled := by
  have ended : s.endTransaction.Settled := by
    unfold State.endTransaction
    split
    · exact State.stationReset_settled _ _
    · exact h
  exact ended.of_owed (by simp [State.request])

theorem State.Settled.serve (h : s.Settled) (refusal : Option Status) (data : State → List Byte) {effect : State → State}
    (taken : refusal = none → (effect s).Settled) : (s.serve refusal data effect).Settled := by
  unfold State.serve
  split
  · exact h
  · exact taken rfl

theorem State.Settled.takeConfig (h : s.Settled) (r : ConfigRecord) : (s.takeConfig r).Settled := by
  have followed : ((((s.storeConfig r).configureAnchor r).setSource
      (((s.storeConfig r).configureAnchor r).source.takeEnables r)).failover.follow).Settled :=
    h.of_owed (by simp [State.storeConfig, State.configureAnchor, Link.configure])
  exact followed.actOnLoss.of_owed (by simp [State.takeConfig, State.configureSource])

theorem State.Settled.readBackFrame (h : s.Settled) (n : Nat) (b : Option Beacon) : (s.readBackFrame n b).Settled := by
  unfold State.readBackFrame State.judgeAnew
  repeat' split
  · exact h
  · exact h
  · exact State.Settled.collided h
  · exact h
  · exact h

theorem State.Settled.handOn (h : s.Settled) (m : Mark) (b : Beacon) : (s.handOn m b).Settled := by
  unfold State.handOn
  split
  next cause _ =>
    have integrated : (s.integrateTo cause m b).Settled := State.settleOwed_settled 2 _
    exact integrated.of_owed (by simp [State.noteArrival])
  next => exact h.of_owed (by simp [State.noteArrival])

theorem State.Settled.windowedFrame (h : s.Settled) (slot : Fin 32) (bytes : List Byte) (m : Mark) :
    (s.windowedFrame slot bytes m).Settled := by
  unfold State.windowedFrame
  repeat' split
  · exact h
  · exact h
  · exact h.raise _
  · exact h
  · exact h.handOn _ _

theorem State.Settled.openFrame (h : s.Settled) (bytes : List Byte) (m : Mark) : (s.openFrame bytes m).Settled := by
  unfold State.openFrame State.ownSlotBeacon
  repeat' split
  · exact h
  · exact h.raise _
  · exact (h.enterStandby _).raise _
  · exact h
  · exact h.raise _
  · exact h.handOn _ _

theorem State.Settled.frameCompletes (h : s.Settled) (bytes : List Byte) (m : Mark) : (s.frameCompletes bytes m).Settled := by
  unfold State.frameCompletes
  repeat' split
  · exact h
  · exact h.readBackFrame _ _
  · exact h.windowedFrame _ _ _
  · exact h.openFrame _ _
  · exact h
  · exact h

theorem State.Settled.departIf (h : s.Settled) : s.departIf.Settled := by
  have released : ∀ x, (s.releaseFrame x).Settled := fun x => h.of_owed (by simp [State.releaseFrame])
  have counted : ∀ x t, ((s.releaseFrame x).setStation t).Settled := fun x t => (released x).of_owed (by simp)
  unfold State.departIf
  repeat' split
  · unfold State.countDeparture
    simp only
    repeat' split
    · exact (counted _ _).enterStandby _
    · exact counted _ _
    · exact released _
  · exact released _
  · exact h

theorem State.Settled.endWindow (h : s.Settled) : s.endWindow.Settled := by
  unfold State.endWindow
  split
  · exact State.Settled.collided (h.of_owed rfl)
  · exact h

theorem State.roundEnd_settled (index : Option Nat) (s : State) : (s.roundEnd index).Settled := State.settleOwed_settled 2 _

theorem State.Settled.roundEndTo (h : s.Settled) (named : Option Nat → State → Bool) : (s.roundEndTo named).Settled := by
  unfold State.roundEndTo
  repeat' split
  · exact s.roundEnd_settled _
  all_goals exact h

theorem State.Settled.lockTimeout (h : s.Settled) (x : Source) : (s.lockTimeout x).Settled := by
  have stopped : (s.markFailed x).stopSynth.Settled := by
    refine h.of_owed ?_
    unfold State.markFailed
    simp only
    split <;> simp
  have reported : (s.markFailed x).stopSynth.reportTimeout.Settled := by
    unfold State.reportTimeout
    split
    · exact stopped.loseClock
    · exact State.enterStalled_settled _
  exact (State.Settled.actOnRecovery (reported.of_owed (by simp))).standbyRuleHere

theorem State.Settled.takeBoundary (h : s.Settled) (i : Fin 4) : (s.takeBoundary i).Settled := h.of_owed (by simp)

theorem State.Settled.windowEnd (h : s.Settled) : s.windowEnd.Settled := by
  have judged : ((s.setSource s.source.windowEnd).raiseAll s.source.windowNotices).failover.Settled := h.of_owed (by simp)
  exact judged.actOnLoss.actOnRecovery.standbyRuleHere

end

/-! ### No command leaves a round end owed -/

/-- A command with its time elapsed is settled; only round ends and integration owe anything on the way, and both settle it. -/
theorem exec_settled {c : Instr} {s t : State} (h : s.Settled) (he : exec c s = .next t) : t.Settled := by
  have elapsed : ∀ dt, (s.elapse dt).Settled := fun dt => h.of_owed (by simp)
  have served : ∀ {dt refusal data} {effect : State → State},
      (refusal = none → (effect (s.request dt)).Settled) → ((s.request dt).serve refusal data effect).Settled :=
    fun taken => (h.request _).serve _ _ taken
  cases c with
  | configure dt ps => cases he; exact served fun _ => (h.request dt).takeConfig _
  | join dt ps =>
    cases he
    refine served fun _ => ?_
    have loaded : (s.request dt).loadHoldover.Settled := (h.request dt).of_owed (by simp)
    unfold State.takeJoin
    simp only
    split
    · exact loaded.of_owed (by simp)
    · exact loaded.enterStarting _
  | withdraw dt ps =>
    cases he
    refine served fun _ => ?_
    unfold State.takeWithdraw
    split
    case h_9 | h_8 => exact h.request dt
    case h_5 | h_6 | h_7 => exact (h.request dt).enterStandby _
    all_goals exact (h.request dt).of_owed (by simp)
  | selectSource dt ps =>
    cases he
    refine served fun _ => ?_
    unfold State.takeSelect
    repeat' split
    · exact h.request dt
    · exact (h.request dt).of_owed (by simp)
    · exact h.request dt
  | powerOnReset dt busy => cases he; rfl
  | stationReset dt busy => cases he; exact State.stationReset_settled _ _
  | frameReceived dt bytes since => cases he; exact (elapsed dt).frameCompletes _ _
  | beaconBuild dt =>
    cases he
    unfold State.buildIf
    split
    · exact (elapsed dt).of_owed (by simp [State.build])
    · exact elapsed dt
  | frameStart dt =>
    cases he
    unfold State.frameIf
    split
    · exact (elapsed dt).of_owed (by simp [State.beginFrame])
    · exact elapsed dt
  | beaconDeparture dt => cases he; exact (elapsed dt).departIf
  | withdrawn dt =>
    cases he
    split
    · exact (elapsed dt).departIf
    · exact elapsed dt
  | ownWindowClose dt =>
    cases he
    unfold State.windowIf
    split
    · exact (elapsed dt).endWindow
    · exact elapsed dt
  | collision dt =>
    cases he
    split
    · exact (elapsed dt).endWindow
    · exact elapsed dt
  | roundEnd dt =>
    cases he
    unfold State.roundEndIf
    split
    · exact State.roundEnd_settled _ _
    · exact elapsed dt
  | anchorPulse dt =>
    cases he
    unfold State.anchorPulse
    repeat' split
    all_goals exact (elapsed dt).of_owed (by simp)
  | anchorSilence dt =>
    cases he
    unfold State.silenceIf
    split
    · exact (elapsed dt).of_owed (by simp)
    · exact elapsed dt
  | slewSpent dt =>
    cases he
    unfold State.slewIf
    split
    · exact (elapsed dt).of_owed (by simp)
    · exact elapsed dt
  | supervisorWindowEnd dt =>
    cases he
    split
    · exact (elapsed dt).windowEnd
    · exact elapsed dt
  | synthesizerLocked dt =>
    cases he
    unfold State.lock
    simp only
    repeat' split
    · exact (elapsed dt).of_owed (by simp)
    · exact (elapsed dt).of_owed (by simp)
    · exact elapsed dt
  | noLock dt =>
    cases he
    split
    · exact ((elapsed dt).raise _).enterStandby _
    · exact elapsed dt
  | lockTimeout dt =>
    cases he
    split
    · exact (elapsed dt).lockTimeout _
    · exact elapsed dt
  | generatorBoundary dt i =>
    cases he
    unfold State.boundaryIf
    split
    · exact (elapsed dt).of_owed (by simp)
    · exact elapsed dt
  | labelApplied dt => cases he; exact (elapsed dt).of_owed (by simp)
  | pinLowAgain dt i => cases he; exact elapsed dt
  | timecodeWordSent dt => cases he; exact elapsed dt
  | unknownCommand dt code ps => cases he; exact h.request dt
  | transactionAbandoned dt => cases he; exact h.request dt
  | reset dt ps | seedTime dt ps | anchorLabel dt ps | resync dt ps | enableNotices dt ps | nextNotice dt ps
  | readStatus dt ps | readPeer dt ps | readGenerator dt ps | readTime dt ps =>
    cases he; exact served fun _ => h.request dt
  | labelChange dt ps => cases he; exact served fun _ => (h.request dt).of_owed (by simp [State.takeChange])
  | peerAdmitted dt slot | peerExcluded dt slot | peerDemoted dt slot | peerLost dt slot | delayEstimateExpired dt slot
  | foundingTimeout dt | joiningSilenceTimeout dt | listenTimerExpiry dt | quorum dt | disagree dt | settled dt =>
    cases he; exact (elapsed dt).roundEndTo _

end Sys2Proof.Machine
end

section
/-! PROOFS. What every step keeps (chapters 2, 3, 5, 7 and 10): the properties that `Kept` carries over each command, and
the round end owed beside them. -/

namespace Sys2Proof.Machine

/-- A property that every elementary change keeps is kept by a step, where it does not speak of the queue. -/
theorem Kept.step_keeps {P : State → Prop} (k : Kept P) (queue : ∀ s q, P s → P (s.withPending q)) {s t : State} (h : P s)
    (he : step s = .next t) : P t :=
  Machine.step_keeps queue k.stepExec h he

/-! ### The invariants -/

/-- Settles O56: rates and notices are kept by every elementary change. -/
theorem rateAndNoticesKept : Obligations.RateAndNoticesKept :=
  ⟨fun _ _ => rate_kept.step_keeps fun _ _ h => h, fun _ _ => notices_kept.step_keeps fun _ _ h => h⟩

/-- Settles O57: the Source Unit in order, in the form in which it is kept. -/
theorem sourcesKept : Obligations.SourcesKept := by
  intro s t h he
  rw [State.sourcesOk_iff] at h ⊢
  exact sources_kept.step_keeps (fun _ _ h => h) h he

/-- What StationOk says: its view is in order, and no round end is owed. -/
theorem State.stationOk_iff (s : State) : s.StationOk ↔ ViewOk s ∧ s.Settled := by
  have invalid : s.clockValid = false ↔ s.discipline.clock = none := Option.isSome_eq_false_iff.trans Option.isNone_iff_eq_none
  constructor
  · intro h
    exact ⟨⟨h.mode, h.listenTimer, h.lockTime, h.transmits, fun stalled => invalid.mp (h.stalled stalled), h.anchorOffset,
      h.anchorClock, h.slewClock, h.changeClock, h.range⟩, h.owed⟩
  · rintro ⟨h, owed⟩
    exact ⟨h.mode, h.listen, h.lock, h.transmits, fun stalled => invalid.mpr (h.stalled stalled), h.anchorOffset,
      h.anchorClock, h.slewClock, h.changeClock, h.range, owed⟩

/-- Settles O58: the view is kept by every elementary change, and no command leaves a round end owed. -/
theorem stationKept : Obligations.StationKept := by
  intro s t h he
  rw [State.stationOk_iff] at h ⊢
  obtain ⟨view, settled⟩ := h
  exact ⟨station_kept.step_keeps (fun _ _ h => h) view he,
    step_keeps (P := State.Settled) (fun _ _ h => h) (fun _ _ _ => exec_settled) settled he⟩

/-- Settles O59: the Peer Table in order, in the form in which it is kept, and its tags. -/
theorem peersKept : Obligations.PeersKept := by
  refine ⟨fun s t h he => ?_, fun _ _ => tags_kept.step_keeps fun _ _ h => h⟩
  rw [PeersGood.iff] at h ⊢
  exact po_kept.step_keeps (fun _ _ h => h) h he

/-! ### The station after a power-on reset -/

/-- The one record of the power-on Notice Unit is RESTARTED in place 0 (R172). -/
theorem NoticeUnit.reset_record (k : Fin 27) :
    NoticeUnit.reset.records[k] = if k = 0 then some ⟨0, none, .restarted true⟩ else none := by
  revert k; decide

theorem NoticeUnit.reset_enables (k : Fin 27) : NoticeUnit.reset.enables[k] = true := by
  revert k; decide

theorem NoticeUnit.reset_ok : NoticeUnit.reset.Ok := by
  intro k r hr
  rw [NoticeUnit.reset_record] at hr
  obtain ⟨rfl, record⟩ := Option.ite_none_right_eq_some.mp hr
  cases record
  exact ⟨rfl, NoticeUnit.reset_enables 0, by decide⟩

theorem SourceUnit.reset_ok : SourceUnit.reset.Ok :=
  ⟨⟨by decide, by decide, by decide⟩, ⟨by decide, by decide, by decide⟩, rfl, by decide, rfl⟩

/-- Settles O60: each block's power-on value is in order. -/
theorem resetSatisfiesInvariants : Obligations.ResetSatisfiesInvariants := by
  refine ⟨⟨by decide, by decide, rfl⟩, NoticeUnit.reset_ok, ⟨SourceUnit.reset_ok, rfl, rfl, rfl⟩, ?station, ?peers,
    PeerTable.reset_tagsDistinct⟩
  case station =>
    exact ⟨rfl, by decide, by decide, by decide, by decide, by decide, by decide, by decide, by decide,
      by rintro c ⟨⟩, rfl⟩
  case peers => exact (PeersGood.iff _).mpr TableOk.reset

end Sys2Proof.Machine
end

section
/-! PROOFS. The control port (R159 to R161, R177): which command the bytes of a request ask for, the checks in their order,
and what a refused request leaves. -/

namespace Sys2Proof.Machine

/-! ### The state and its queue -/

/-- Every elementary change leaves the queue as it is. -/
theorem pending_kept (q : List Instr) : Kept fun s => s.pending = q where
  raise _ s h := (s.raise_pending _).trans h
  setRestart s h := s.setRestart_pending.trans h
  enterListen _ s h := (s.enterListen_pending _).trans h
  enterJoining _ s h _ := (s.enterJoining_pending _).trans h
  enterAgreed _ s h _ := (s.enterAgreed_pending _).trans h
  enterIsolated _ s h _ := (s.enterIsolated_pending _).trans h
  integrateTo c l m b s h := by unfold State.integrateClock; split <;> simpa
  found _ h _ := by simpa
  station _ _ h _ _ _ := h
  signal _ s h := (s.signal_pending _).trans h
  closeTable s h := s.closeTable_pending.trans h
  agreement _ _ h := h
  examineLabels _ s h _ := (s.examineLabels_pending _).trans h
  steerOnly _ s h := (s.steerOnly_pending _).trans h
  applyRules _ _ _ s h := (s.applyRules_pending _ _ _).trans h
  exchange _ h := h
  takeMajorityOffset s h := s.takeMajorityOffset_pending.trans h
  settleNone _ h := h
  elapse _ s h := (s.elapse_pending _).trans h
  port _ _ h _ := h
  stationReset _ s h := by simpa [State.stationReset]
  powerOn _ _ h := h
  takeConfig r s h _ _ _ := by simpa [State.takeConfig, State.configureSource, State.configureAnchor, State.storeConfig]
  loadHoldover s h := s.loadHoldover_pending.trans h
  takeSeed _ _ _ h := h
  takeLabel _ _ h := h
  takeChange _ _ _ h _ := by simpa [State.takeChange]
  select _ s h _ := (s.select_pending _).trans h
  enable _ _ _ h := h
  take _ h := h
  enterStandby _ s h := (s.enterStandby_pending _).trans h
  enterStarting _ s h := (s.enterStarting_pending _).trans h
  enterStalled s h := s.enterStalled_pending.trans h
  enterWithdrawing _ s h _ := (s.enterWithdrawing_pending _).trans h
  noteArrival _ _ h := h
  handToPeer _ _ _ s h _ _ := (s.handToPeer_pending _ _ _).trans h
  readBack _ _ h := h
  judge _ _ _ h := h
  build _ _ s h := (s.build_pending _ _).trans h
  beginFrame _ s h := (s.beginFrame_pending _).trans h
  releaseFrame _ s h := (s.releaseFrame_pending _).trans h
  closeWindow s h := s.closeWindow_pending.trans h
  applyDue s h := s.applyDue_pending.trans h
  capture _ _ s h _ := (s.capture_pending _ _).trans h
  dropAnchor _ s h := (s.dropAnchor_pending _).trans h
  slewNone _ h := h
  windowEnd _ h := h
  failover s h := s.failover_pending.trans h
  loseClock s h _ := s.loseClock_pending.trans h
  standbyRule s h := s.standbyRule_pending.trans h
  stopSynth s h := s.stopSynth_pending.trans h
  completeLock s h _ := s.completeLock_pending.trans h
  markFailed x s h _ _ := by unfold State.markFailed; simp only; split <;> simpa
  gens _ _ h := h
  timecode _ _ h := h

theorem exec_next (c : Instr) (s : State) : ∃ t, exec c s = .next t := by
  cases c <;> exact ⟨_, rfl⟩

/-- Settles O2: no command stops or is refused, and none touches the queue. -/
theorem everyCommandAnswersNext : Obligations.EveryCommandAnswersNext := by
  intro c s
  obtain ⟨t, ht⟩ := exec_next c s
  exact ⟨t, ht, (pending_kept s.pending).stepExec c s t rfl ht⟩

/-! ### The command of a request (R177) -/

/-- The commands by their codes (R177). -/
def commandTable : List (Nat × (Elapsed → List Byte → Instr)) :=
  [(0x01, Instr.configure), (0x02, .join), (0x03, .withdraw), (0x04, .reset), (0x05, .seedTime), (0x06, .anchorLabel),
    (0x07, .labelChange), (0x08, .selectSource), (0x09, .resync), (0x0A, .enableNotices), (0x0B, .nextNotice),
    (0x0C, .readStatus), (0x0D, .readPeer), (0x0E, .readGenerator), (0x0F, .readTime)]

section
variable (dt : Elapsed) {code high low : Byte} {ps : List Byte}

theorem commandOf_of_mem {c : Elapsed → List Byte → Instr} (h : (code.toNat, c) ∈ commandTable) :
    commandOf dt code ps = c dt ps := by
  simp only [commandTable, List.mem_cons, Prod.mk.injEq, List.not_mem_nil, or_false] at h
  rcases h with ⟨k, rfl⟩ | ⟨k, rfl⟩ | ⟨k, rfl⟩ | ⟨k, rfl⟩ | ⟨k, rfl⟩ | ⟨k, rfl⟩ | ⟨k, rfl⟩ | ⟨k, rfl⟩ | ⟨k, rfl⟩ | ⟨k, rfl⟩ |
    ⟨k, rfl⟩ | ⟨k, rfl⟩ | ⟨k, rfl⟩ | ⟨k, rfl⟩ | ⟨k, rfl⟩ <;> simp only [commandOf, k]

theorem commandOf_of_unknown (h : code.toNat = 0 ∨ 15 < code.toNat) :
    commandOf dt code ps = .unknownCommand dt code ps := by
  unfold commandOf
  split
  case h_16 => rfl
  all_goals omega

section
variable (length : high.toNat * 256 + low.toNat = ps.length)
include length

/-- Bytes past the parameters belong to the response. -/
theorem requestInstr_complete (more : List Byte) :
    requestInstr dt (code :: high :: low :: (ps ++ more)) = commandOf dt code ps := by
  simp [requestInstr, length]

theorem requestInstr_cut {n : Nat} (h : n < ps.length) :
    requestInstr dt (code :: high :: low :: ps.take n) = .transactionAbandoned dt := by
  have short : ¬ps.length ≤ (ps.take n).length := by rw [List.length_take]; omega
  simp only [requestInstr, length, if_neg short]

end

theorem requestInstr_short {bytes : List Byte} (h : bytes.length < 3) : requestInstr dt bytes = .transactionAbandoned dt := by
  match bytes, h with
  | [], _ | [_], _ | [_, _], _ => rfl

end

/-! ### Answers (R160, R177) -/

theorem State.serve_some {st : Status} (data : State → List Byte) (effect : State → State) (s : State) :
    s.serve (some st) data effect = s.answer st [] := rfl

theorem State.serve_none (data : State → List Byte) (effect : State → State) (s : State) :
    s.serve none data effect = (effect s).answer .ok (data s) := rfl

theorem Status.response_ok_nil : Status.ok.response [] = [0x00#8, 0x00#8, 0x00#8, 0x00#8] := rfl

/-- A command that returns no data, taken. -/
theorem State.serve_noData (effect : State → State) (s : State) : s.serve none noData effect =
    (effect s).setPort { (effect s).port with response := [0x00#8, 0x00#8, 0x00#8, 0x00#8] } := by
  rw [State.serve_none, State.answer, noData, Status.response_ok_nil]

theorem field_one_of_lt {v : Nat} (h : v < 256) : field 1 v = [BitVec.ofNat 8 v] := by
  have fits : v < 256 ^ 1 := by omega
  rw [field, if_pos fits]
  simp [bytesOf]

theorem Status.response_refusedValue {i : Nat} (h : i < 256) :
    (Status.refusedValue i).response [] = [0x02#8, BitVec.ofNat 8 i, 0x00#8, 0x00#8] := by
  have code : field 1 (Status.refusedValue i).code = [0x02#8] := field_one_of_lt (show 2 < 256 by decide)
  have index : field 1 (Status.refusedValue i).index = [BitVec.ofNat 8 i] := field_one_of_lt h
  rw [response, code, index, List.length_nil, field_two_of_lt (by decide)]
  rfl

@[simp] theorem State.answer_response (st : Status) (d : List Byte) (s : State) :
    (s.answer st d).port.response = st.response d := rfl

/-! ### The checks, in order (R160) -/

section
variable {lengthOk stateOk : Bool} {bad : Option Nat} {particular : Option Status}

theorem gate_length (h : lengthOk = false) : gate lengthOk stateOk bad particular = some (.refusedValue 0) := by
  simp [gate, h]

theorem gate_state (length : lengthOk = true) (h : stateOk = false) :
    gate lengthOk stateOk bad particular = some .refusedState := by
  simp [gate, length, h]

theorem gate_value {i : Nat} (length : lengthOk = true) (state : stateOk = true) (h : bad = some i) :
    gate lengthOk stateOk bad particular = some (.refusedValue i) := by
  simp [gate, length, state, h]

theorem gate_own (length : lengthOk = true) (state : stateOk = true) (h : bad = none) :
    gate lengthOk stateOk bad particular = particular := by
  simp [gate, length, state, h]

end

/-- A request without parameters passes where none are asked for, in every state. -/
theorem gate_no_parameters : gate (([] : List Byte).length == 0) true none none = none := rfl

theorem StationState.withdraws_iff (st : StationState) : st.withdraws = true ↔ st ≠ .standby ∧ st ≠ .withdrawing := by
  cases st <;> simp [withdraws]

theorem StationState.takesSeed_iff (st : StationState) :
    st.takesSeed = true ↔ st = .standby ∨ st = .starting ∨ st = .listen := by
  cases st <;> simp [takesSeed]

theorem StationState.resyncs_iff (st : StationState) :
    st.resyncs = true ↔ st = .joining ∨ st = .agreed ∨ st = .isolated := by
  cases st <;> simp [resyncs]

/-- A wrong length is found before the byte is read as a source. -/
theorem State.refuseSelect_length {ps : List Byte} (h : ps.length ≠ 1) (s : State) :
    s.refuseSelect ps = some (.refusedValue 0) := by
  unfold State.refuseSelect
  split <;> exact gate_length (beq_eq_false_iff_ne.mpr h)

theorem State.refuseSelect_unnamed {ps : List Byte} (length : ps.length = 1) (h : parseSource (natAt ps 0 1) = none)
    (s : State) : s.refuseSelect ps = some (.refusedValue 1) := by
  rw [State.refuseSelect, h]
  exact gate_value (beq_iff_eq.mpr length) rfl rfl

theorem State.refuseSelect_named {ps : List Byte} {x : Source} (length : ps.length = 1)
    (h : parseSource (natAt ps 0 1) = some x) (s : State) : s.refuseSelect ps = s.source.refuseSource x := by
  rw [State.refuseSelect, h]
  exact gate_own (beq_iff_eq.mpr length) rfl rfl

/-! ### The meaning of each host command -/

section
variable (dt : Elapsed) (ps : List Byte) (s : State)

theorem exec_configure : exec (.configure dt ps) s =
    .next ((s.request dt).serve ((s.request dt).refuseConfigure ps) noData (·.takeConfig (parseConfig ps))) := rfl

theorem exec_join : exec (.join dt ps) s =
    .next ((s.request dt).serve ((s.request dt).refuseJoin ps) noData (·.takeJoin)) := rfl

theorem exec_withdraw : exec (.withdraw dt ps) s =
    .next ((s.request dt).serve ((s.request dt).refuseWithdraw ps) noData (·.takeWithdraw)) := rfl

theorem exec_reset : exec (.reset dt ps) s =
    .next ((s.request dt).serve (gate (ps.length == 0) true none none) noData (·.takeReset)) := rfl

theorem exec_seedTime : exec (.seedTime dt ps) s =
    .next ((s.request dt).serve ((s.request dt).refuseSeed ps) noData (·.takeSeed (natAt ps 0 6) (natAt ps 6 4))) := rfl

theorem exec_anchorLabel : exec (.anchorLabel dt ps) s =
    .next ((s.request dt).serve ((s.request dt).refuseLabel ps) noData (·.takeLabel (natAt ps 0 6))) := rfl

theorem exec_labelChange : exec (.labelChange dt ps) s =
    .next ((s.request dt).serve ((s.request dt).refuseChange ps) noData (·.takeChange (intAt ps 0 4) (natAt ps 4 6))) := rfl

theorem exec_selectSource : exec (.selectSource dt ps) s =
    .next ((s.request dt).serve ((s.request dt).refuseSelect ps) noData (·.takeSelect (parseSource (natAt ps 0 1)))) := rfl

theorem exec_resync : exec (.resync dt ps) s =
    .next ((s.request dt).serve ((s.request dt).refuseResync ps) noData (·.setRestart)) := rfl

theorem exec_enableNotices : exec (.enableNotices dt ps) s =
    .next ((s.request dt).serve (refuseEnables ps) noData
      (fun u => u.setNotices (u.notices.enable (natAt ps 0 4) (natAt ps 4 4)))) := rfl

theorem exec_nextNotice_serve : exec (.nextNotice dt ps) s =
    .next ((s.request dt).serve (gate (ps.length == 0) true none none) State.noticeData
      (fun u => u.setNotices u.notices.take)) := rfl

theorem exec_readStatus : exec (.readStatus dt ps) s =
    .next ((s.request dt).serve (gate (ps.length == 0) true none none) State.statusSnapshot id) := rfl

theorem exec_readPeer : exec (.readPeer dt ps) s =
    .next ((s.request dt).serve (refusePlace 32 ps) (State.peerData (Fin.ofNat 32 (natAt ps 0 1))) id) := rfl

theorem exec_readGenerator : exec (.readGenerator dt ps) s =
    .next ((s.request dt).serve (refusePlace 4 ps) (State.generatorData (Fin.ofNat 4 (natAt ps 0 1))) id) := rfl

theorem exec_readTime : exec (.readTime dt ps) s =
    .next ((s.request dt).serve (gate (ps.length == 0) true none none) State.timeData (·.latchTime)) := rfl

end

/-! ### A refused request -/

section
variable {dt : Elapsed} {ps : List Byte} {s : State} {st : Status}

theorem exec_configure_refused (h : (s.request dt).refuseConfigure ps = some st) :
    exec (.configure dt ps) s = .next ((s.request dt).answer st []) := by rw [exec_configure, h, State.serve_some]

theorem exec_join_refused (h : (s.request dt).refuseJoin ps = some st) :
    exec (.join dt ps) s = .next ((s.request dt).answer st []) := by rw [exec_join, h, State.serve_some]

theorem exec_withdraw_refused (h : (s.request dt).refuseWithdraw ps = some st) :
    exec (.withdraw dt ps) s = .next ((s.request dt).answer st []) := by rw [exec_withdraw, h, State.serve_some]

theorem exec_reset_refused (h : gate (ps.length == 0) true none none = some st) :
    exec (.reset dt ps) s = .next ((s.request dt).answer st []) := by rw [exec_reset, h, State.serve_some]

theorem exec_seedTime_refused (h : (s.request dt).refuseSeed ps = some st) :
    exec (.seedTime dt ps) s = .next ((s.request dt).answer st []) := by rw [exec_seedTime, h, State.serve_some]

theorem exec_anchorLabel_refused (h : (s.request dt).refuseLabel ps = some st) :
    exec (.anchorLabel dt ps) s = .next ((s.request dt).answer st []) := by rw [exec_anchorLabel, h, State.serve_some]

theorem exec_labelChange_refused (h : (s.request dt).refuseChange ps = some st) :
    exec (.labelChange dt ps) s = .next ((s.request dt).answer st []) := by rw [exec_labelChange, h, State.serve_some]

theorem exec_selectSource_refused (h : (s.request dt).refuseSelect ps = some st) :
    exec (.selectSource dt ps) s = .next ((s.request dt).answer st []) := by rw [exec_selectSource, h, State.serve_some]

theorem exec_resync_refused (h : (s.request dt).refuseResync ps = some st) :
    exec (.resync dt ps) s = .next ((s.request dt).answer st []) := by rw [exec_resync, h, State.serve_some]

theorem exec_enableNotices_refused (h : refuseEnables ps = some st) :
    exec (.enableNotices dt ps) s = .next ((s.request dt).answer st []) := by rw [exec_enableNotices, h, State.serve_some]

theorem exec_nextNotice_refused (h : gate (ps.length == 0) true none none = some st) :
    exec (.nextNotice dt ps) s = .next ((s.request dt).answer st []) := by rw [exec_nextNotice_serve, h, State.serve_some]

theorem exec_readStatus_refused (h : gate (ps.length == 0) true none none = some st) :
    exec (.readStatus dt ps) s = .next ((s.request dt).answer st []) := by rw [exec_readStatus, h, State.serve_some]

theorem exec_readPeer_refused (h : refusePlace 32 ps = some st) :
    exec (.readPeer dt ps) s = .next ((s.request dt).answer st []) := by rw [exec_readPeer, h, State.serve_some]

theorem exec_readGenerator_refused (h : refusePlace 4 ps = some st) :
    exec (.readGenerator dt ps) s = .next ((s.request dt).answer st []) := by rw [exec_readGenerator, h, State.serve_some]

theorem exec_readTime_refused (h : gate (ps.length == 0) true none none = some st) :
    exec (.readTime dt ps) s = .next ((s.request dt).answer st []) := by rw [exec_readTime, h, State.serve_some]

end

/-- Settles O5: a refusal is the answer alone, command by command. -/
theorem refusedCommandChangesNothing : Obligations.RefusedCommandChangesNothing := by
  intro dt s st q
  refine ⟨fun _ => exec_configure_refused, fun _ => exec_join_refused, fun _ => exec_withdraw_refused,
    fun _ => exec_seedTime_refused, fun _ => exec_anchorLabel_refused, fun _ => exec_labelChange_refused,
    fun _ => exec_selectSource_refused, fun _ => exec_resync_refused, fun _ => exec_enableNotices_refused,
    fun _ => exec_readPeer_refused, fun _ => exec_readGenerator_refused, fun ps parameters => ?_, fun _ _ => rfl, rfl⟩
  have length : gate (ps.length == 0) true none none = some (.refusedValue 0) := gate_length (by simpa using parameters)
  exact ⟨exec_reset_refused length, exec_nextNotice_refused length, exec_readStatus_refused length,
    exec_readTime_refused length⟩

/-- Settles O10: RESET sets its mark alone, and the next request finds it. -/
theorem resetComesWithTheEnd : Obligations.ResetComesWithTheEnd := by
  refine ⟨fun dt s => ⟨_, exec_reset dt [] s, ?_⟩, fun dt s taken => ?_, fun dt s absent => ?_⟩
  · rw [gate_no_parameters, State.serve_noData]
    rfl
  · simp only [State.request, State.endTransaction, taken, if_true]
  · simp only [State.request, State.endTransaction, absent, Bool.false_eq_true, if_false]

end Sys2Proof.Machine
end

section
/-! PROOFS. The checks of every request in order (R160 to R162, R128, R170, R177), and the commands that set one item:
SEED_TIME, ANCHOR_LABEL, RESYNC and ENABLE_NOTICES (R27, R91, R104, R170). -/

namespace Sys2Proof.Machine

/-! ### The first field out of its range (R162) -/

/-- Along ranges whose indexes rise, the first failure is the failing range before which every other holds. -/
theorem firstFailure_eq_some {cs : List (Nat × Bool)} {rs : List (Nat × Prop)} (agree : ChecksAgree cs rs)
    (rise : rs.Pairwise fun f g => f.1 < g.1) {i : Nat} (fails : ∃ f ∈ rs, f.1 = i ∧ ¬f.2)
    (before : ∀ f ∈ rs, f.1 < i → f.2) : firstFailure cs = some i := by
  induction agree with
  | nil => simp at fails
  | @cons c r cs rs h tail ih =>
    obtain ⟨index, range⟩ := h
    obtain ⟨head, rest⟩ := List.pairwise_cons.mp rise
    obtain ⟨f, mem, rfl, out⟩ := fails
    cases passes : c.2 with
    | true =>
      have later : f ∈ rs := (List.mem_cons.mp mem).resolve_left fun e => out (e ▸ range.mp passes)
      have tailFails : firstFailure cs = some f.1 :=
        ih rest ⟨f, later, rfl, out⟩ fun g hg => before g (List.mem_cons_of_mem _ hg)
      simpa [firstFailure, List.find?_cons, passes] using tailFails
    | false =>
      have first : f = r := by
        refine (List.mem_cons.mp mem).resolve_right fun later => ?_
        have held : r.2 := before r List.mem_cons_self (head f later)
        rw [range.mpr held] at passes
        cases passes
      rw [firstFailure, List.find?_cons_of_pos (by simp [passes]), Option.map_some, index, first]

/-- The fields of R162 stand in the order of their indexes, 1 to 48. -/
theorem configRanges_indexes (bs : List Byte) : (configRanges bs).map (·.1) = List.range' 1 48 := rfl

theorem configChecks_fail {bs : List Byte} {i : Nat} (h : ConfigFailsAt bs i) : firstFailure (configChecks bs) = some i := by
  obtain ⟨fails, before⟩ := h
  refine firstFailure_eq_some (configChecks_agree bs) ?_ fails before
  refine List.pairwise_map.mp ?_
  rw [configRanges_indexes]
  exact List.pairwise_lt_range'

/-- The record disables the source of a lock whose enable byte is 0 (R128). -/
theorem SourceUnit.disablesLock_of_zero {u : SourceUnit} {ps : List Byte} {x : Source} (runs : u.synth ≠ .off)
    (zero : natAt ps (match x with | .xo => 37 | .ref => 38) 1 = 0) (lock : u.lockSource = some x) :
    u.disablesLock (parseConfig ps) = true := by
  cases hs : u.synth with
  | off => exact absurd hs runs
  | locking | locked | relocking => cases x <;> simp_all [disablesLock, parseConfig]

/-! ### Parameters of one byte -/

theorem natAt_singleton (b : Byte) : natAt [b] 0 1 = b.toNat := by
  simp [natAt, natOf, part]

theorem parseSource_eq_none {n : Nat} (one : n ≠ 1) (two : n ≠ 2) : parseSource n = none := by
  unfold parseSource
  split <;> simp_all

theorem refusePlace_of_ge {n : Nat} {ps : List Byte} (length : ps.length = 1) (h : n ≤ natAt ps 0 1) :
    refusePlace n ps = some (.refusedValue 1) :=
  gate_value (beq_iff_eq.mpr length) rfl (if_neg (Nat.not_lt.mpr h))

theorem refusePlace_of_lt {n : Nat} {ps : List Byte} (length : ps.length = 1) (h : natAt ps 0 1 < n) :
    refusePlace n ps = none :=
  gate_own (beq_iff_eq.mpr length) rfl (if_pos h)

/-! ### The particular gates -/

section
variable {ps : List Byte} {s : State}

theorem State.refuseSeed_value (length : ps.length = 10)
    (state : s.station.state = .standby ∨ s.station.state = .starting ∨ s.station.state = .listen)
    (h : 1000000000 ≤ natAt ps 6 4) : s.refuseSeed ps = some (.refusedValue 2) :=
  gate_value (beq_iff_eq.mpr length) ((StationState.takesSeed_iff _).mpr state) (if_neg (Nat.not_lt.mpr h))

theorem State.refuseSeed_none (length : ps.length = 10)
    (state : s.station.state = .standby ∨ s.station.state = .starting ∨ s.station.state = .listen)
    (h : natAt ps 6 4 < 1000000000) : s.refuseSeed ps = none :=
  gate_own (beq_iff_eq.mpr length) ((StationState.takesSeed_iff _).mpr state) (if_pos h)

theorem State.refuseLabel_state (length : ps.length = 6) (h : ¬(s.configured = true ∧ s.config.anchorEnabled = true)) :
    s.refuseLabel ps = some .refusedState :=
  gate_state (beq_iff_eq.mpr length) (by simpa using h)

theorem State.refuseLabel_none (length : ps.length = 6) (configured : s.configured = true)
    (enabled : s.config.anchorEnabled = true) : s.refuseLabel ps = none :=
  gate_own (beq_iff_eq.mpr length) (by simp [configured, enabled]) rfl

theorem State.refuseChange_state (length : ps.length = 10)
    (h : ¬(s.station.state = .agreed ∧ s.config.anchorEnabled = true)) : s.refuseChange ps = some .refusedState :=
  gate_state (beq_iff_eq.mpr length) (by simpa using h)

section
variable (length : ps.length = 10) (agreed : s.station.state = .agreed) (enabled : s.config.anchorEnabled = true)
include length agreed enabled

theorem State.refuseChange_value (h : intAt ps 0 4 < -86400 ∨ 86400 < intAt ps 0 4) :
    s.refuseChange ps = some (.refusedValue 1) := by
  have out : labelOffsetOk (intAt ps 0 4) = false := by simp only [labelOffsetOk, Bool.and_eq_false_iff, decide_eq_false_iff_not]; omega
  exact gate_value (beq_iff_eq.mpr length) (by simp [agreed, enabled]) (by simp [out])

theorem State.refuseChange_own (low : -86400 ≤ intAt ps 0 4) (high : intAt ps 0 4 ≤ 86400) :
    s.refuseChange ps = s.refuseChangeOwn (natAt ps 4 6) := by
  have fits : labelOffsetOk (intAt ps 0 4) = true := by simp [labelOffsetOk, low, high]
  exact gate_own (beq_iff_eq.mpr length) (by simp [agreed, enabled]) (by simp [fits])

end

theorem State.refuseResync_state (length : ps.length = 0)
    (h : ¬(s.station.state = .joining ∨ s.station.state = .agreed ∨ s.station.state = .isolated)) :
    s.refuseResync ps = some .refusedState :=
  gate_state (beq_iff_eq.mpr length) (Bool.eq_false_iff.mpr fun k => h ((StationState.resyncs_iff _).mp k))

theorem State.refuseResync_none (length : ps.length = 0)
    (h : s.station.state = .joining ∨ s.station.state = .agreed ∨ s.station.state = .isolated) :
    s.refuseResync ps = none :=
  gate_own (beq_iff_eq.mpr length) ((StationState.resyncs_iff _).mpr h) rfl

theorem State.refuseJoin_state (length : ps.length = 0) (h : ¬(s.station.state = .standby ∧ s.configured = true)) :
    s.refuseJoin ps = some .refusedState :=
  gate_state (beq_iff_eq.mpr length) (by simpa using h)

theorem State.refuseWithdraw_state (length : ps.length = 0)
    (h : ¬(s.station.state ≠ .standby ∧ s.station.state ≠ .withdrawing)) : s.refuseWithdraw ps = some .refusedState :=
  gate_state (beq_iff_eq.mpr length) (Bool.eq_false_iff.mpr fun k => h ((StationState.withdraws_iff _).mp k))

theorem State.refuseConfigure_state (length : ps.length = 89) (h : s.station.state ≠ .standby) :
    s.refuseConfigure ps = some .refusedState :=
  gate_state (beq_iff_eq.mpr length) (by simpa using h)

section
variable (length : ps.length = 89) (standby : s.station.state = .standby)
include length standby

theorem State.refuseConfigure_value {i : Nat} (h : ConfigFailsAt ps i) : s.refuseConfigure ps = some (.refusedValue i) :=
  gate_value (beq_iff_eq.mpr length) (by simpa using standby) (configChecks_fail h)

theorem State.refuseConfigure_own (h : ConfigFits ps) : s.refuseConfigure ps =
    if s.source.disablesLock (parseConfig ps) then some .refusedSource else none :=
  gate_own (beq_iff_eq.mpr length) (by simpa using standby) ((configChecks_pass ps).mpr h)

end

theorem refuseEnables_mask (length : ps.length = 8) (h : 2 ^ 27 ≤ natAt ps 0 4) :
    refuseEnables ps = some (.refusedValue 1) :=
  gate_value (beq_iff_eq.mpr length) rfl (if_pos h)

theorem refuseEnables_values (length : ps.length = 8) (mask : natAt ps 0 4 < 2 ^ 27) (h : 2 ^ 27 ≤ natAt ps 4 4) :
    refuseEnables ps = some (.refusedValue 2) :=
  gate_value (beq_iff_eq.mpr length) rfl ((if_neg (Nat.not_le.mpr mask)).trans (if_pos h))

theorem refuseEnables_none (length : ps.length = 8) (mask : natAt ps 0 4 < 2 ^ 27) (values : natAt ps 4 4 < 2 ^ 27) :
    refuseEnables ps = none :=
  gate_own (beq_iff_eq.mpr length) rfl ((if_neg (Nat.not_le.mpr mask)).trans (if_neg (Nat.not_le.mpr values)))

end

/-! ### Every command's length and states -/

/-- The parameter bytes each command takes (R177). -/
def commandLengths : List ((Elapsed → List Byte → Instr) × Nat) :=
  [(Instr.configure, 89), (.join, 0), (.withdraw, 0), (.reset, 0), (.seedTime, 10), (.anchorLabel, 6), (.labelChange, 10),
    (.selectSource, 1), (.resync, 0), (.enableNotices, 8), (.nextNotice, 0), (.readStatus, 0), (.readPeer, 1),
    (.readGenerator, 1), (.readTime, 0)]

theorem exec_refused_of_length {dt : Elapsed} {ps : List Byte} {s : State} {c : Elapsed → List Byte → Instr} {n : Nat}
    (command : (c, n) ∈ commandLengths) (h : ps.length ≠ n) :
    exec (c dt ps) s = .next ((s.request dt).answer (.refusedValue 0) []) := by
  have wrong : (ps.length == n) = false := beq_eq_false_iff_ne.mpr h
  simp only [commandLengths, List.mem_cons, Prod.mk.injEq, List.not_mem_nil, or_false] at command
  rcases command with ⟨rfl, rfl⟩ | ⟨rfl, rfl⟩ | ⟨rfl, rfl⟩ | ⟨rfl, rfl⟩ | ⟨rfl, rfl⟩ | ⟨rfl, rfl⟩ | ⟨rfl, rfl⟩ | ⟨rfl, rfl⟩ |
    ⟨rfl, rfl⟩ | ⟨rfl, rfl⟩ | ⟨rfl, rfl⟩ | ⟨rfl, rfl⟩ | ⟨rfl, rfl⟩ | ⟨rfl, rfl⟩ | ⟨rfl, rfl⟩
  · exact exec_configure_refused (gate_length wrong)
  · exact exec_join_refused (gate_length wrong)
  · exact exec_withdraw_refused (gate_length wrong)
  · exact exec_reset_refused (gate_length wrong)
  · exact exec_seedTime_refused (gate_length wrong)
  · exact exec_anchorLabel_refused (gate_length wrong)
  · exact exec_labelChange_refused (gate_length wrong)
  · exact exec_selectSource_refused (State.refuseSelect_length h _)
  · exact exec_resync_refused (gate_length wrong)
  · exact exec_enableNotices_refused (gate_length wrong)
  · exact exec_nextNotice_refused (gate_length wrong)
  · exact exec_readStatus_refused (gate_length wrong)
  · exact exec_readPeer_refused (gate_length wrong)
  · exact exec_readGenerator_refused (gate_length wrong)
  · exact exec_readTime_refused (gate_length wrong)

/-- Settles O6: the code by the table of commands, then length, state and parameters gate by gate. -/
theorem checksComeInOrder : Obligations.ChecksComeInOrder := by
  refine ⟨fun dt code high low ps more c length => ⟨fun mem => ?_, fun unknown => ?_, fun n cut => ?_⟩,
    fun dt bytes => requestInstr_short dt, fun q => ⟨rfl, rfl, fun i small => Status.response_refusedValue small, rfl, rfl, rfl⟩,
    fun dt s ps => ?_⟩
  · rw [requestInstr_complete dt length, commandOf_of_mem dt mem]
  · rw [requestInstr_complete dt length, commandOf_of_unknown dt unknown]
  · exact requestInstr_cut dt length cut
  · intro q anchored
    refine ⟨fun c n mem => exec_refused_of_length mem, ?state, ?configure, ?seed, ?change, ?place, ?enables⟩
    case state =>
      intro c n accepted command length refused
      simp only [List.mem_cons, Prod.mk.injEq, List.not_mem_nil, or_false] at command
      rcases command with ⟨rfl, rfl, rfl⟩ | ⟨rfl, rfl, rfl⟩ | ⟨rfl, rfl, rfl⟩ | ⟨rfl, rfl, rfl⟩ | ⟨rfl, rfl, rfl⟩ |
        ⟨rfl, rfl, rfl⟩ | ⟨rfl, rfl, rfl⟩
      · exact exec_configure_refused (State.refuseConfigure_state length refused)
      · exact exec_join_refused (State.refuseJoin_state length refused)
      · exact exec_withdraw_refused (State.refuseWithdraw_state length refused)
      · exact exec_seedTime_refused (gate_state (beq_iff_eq.mpr length)
          (Bool.eq_false_iff.mpr fun k => refused ((StationState.takesSeed_iff _).mp k)))
      · exact exec_anchorLabel_refused (State.refuseLabel_state length refused)
      · refine exec_labelChange_refused (State.refuseChange_state length fun ⟨agreed, enabled⟩ => refused ⟨agreed, ?_, enabled⟩)
        cases held : q.port.record with
        | some r => simp [State.configured, held]
        | none =>
          have blank : q.config.anchorEnabled = false := by simp [State.config, held, ConfigRecord.blank]
          rw [blank] at enabled
          cases enabled
      · exact exec_resync_refused (State.refuseResync_state length refused)
    case configure =>
      intro length standby
      refine ⟨fun i fails => exec_configure_refused (State.refuseConfigure_value length standby fails),
        fun x fits runs lock zero => exec_configure_refused ?_⟩
      rw [State.refuseConfigure_own length standby fits, if_pos (SourceUnit.disablesLock_of_zero runs zero lock)]
    case seed => exact fun length state high => exec_seedTime_refused (State.refuseSeed_value length state high)
    case change =>
      exact fun length agreed enabled out => exec_labelChange_refused (State.refuseChange_value length agreed enabled.2 out)
    case place =>
      exact fun length => ⟨fun one two =>
          exec_selectSource_refused (State.refuseSelect_unnamed length (parseSource_eq_none one two) _),
        fun high => exec_readPeer_refused (refusePlace_of_ge length high),
        fun high => exec_readGenerator_refused (refusePlace_of_ge length high)⟩
    case enables =>
      exact fun length => ⟨fun mask => exec_enableNotices_refused (refuseEnables_mask length mask),
        fun mask values => exec_enableNotices_refused (refuseEnables_values length mask values)⟩

/-! ### Commands that set one item -/

/-- Settles O11: past the gates each command replaces one item of one block. -/
theorem seedLabelAndResyncTaken : Obligations.SeedLabelAndResyncTaken := by
  intro dt s q
  refine ⟨fun ps length ns state => ?seed, fun ps length ns state => exec_seedTime_refused (State.refuseSeed_value length state ns),
    fun ps length configured enabled => ?label, fun ps length absent => ?unanchored, fun state => ?resync, fun state => ?state⟩
  case seed =>
    refine ⟨_, exec_seedTime dt ps s, ?_⟩
    rw [State.refuseSeed_none length state ns, State.serve_noData]
    exact ⟨rfl, rfl⟩
  case label =>
    rw [exec_anchorLabel, State.refuseLabel_none length configured enabled, State.serve_noData]
    rfl
  case unanchored =>
    refine exec_anchorLabel_refused (State.refuseLabel_state length fun ⟨configured, enabled⟩ => ?_)
    rcases absent with h | h
    · exact Bool.false_ne_true (h.symm.trans configured)
    · exact Bool.false_ne_true (h.symm.trans enabled)
  case resync =>
    rw [exec_resync, State.refuseResync_none rfl state, State.serve_noData]
    rfl
  case state => exact exec_resync_refused (State.refuseResync_state rfl state)

theorem bitAt_eq_testBit (n i : Nat) : bitAt n i = n.testBit i := by
  rw [bitAt, Nat.testBit_eq_decide_div_mod_eq, beq_eq_decide]

/-- Settles O14: past the gate the Notice Unit alone changes, place by place. -/
theorem enablesTakeMaskedValues : Obligations.EnablesTakeMaskedValues := by
  intro dt ps s q length mask values
  have taken : exec (.enableNotices dt ps) s =
      .next ((q.setNotices (q.notices.enable (natAt ps 0 4) (natAt ps 4 4))).setPort
        { q.port with response := [0x00#8, 0x00#8, 0x00#8, 0x00#8] }) := by
    rw [exec_enableNotices, refuseEnables_none length mask values, State.serve_noData]
    rfl
  have enables : ∀ k : Fin 27, (q.notices.enable (natAt ps 0 4) (natAt ps 4 4)).enables[k] =
      if (natAt ps 0 4).testBit k.val then (natAt ps 4 4).testBit k.val else q.notices.enables[k] := by
    intro k
    rw [NoticeUnit.enable, tabulate_get, newEnable, bitAt_eq_testBit, bitAt_eq_testBit]
  refine ⟨_, taken, rfl, fun k => ⟨enables k, rfl, ?_⟩⟩
  exact (tabulate_get 27 _ k).trans (by rw [← tabulate_get 27 (fun i => newEnable _ _ q.notices.enables[i] i) k]; rfl)

end Sys2Proof.Machine
end

section
/-! PROOFS. The Source Unit's operations said once (R117, R120 to R122, R125), SELECT_SOURCE (R127), and the two resets
(R130, R172). -/

namespace Sys2Proof.Machine

/-! ### Following the selected source (R121, R122) -/

section
variable {s : State}

theorem State.follow_of_same (h : s.source.lockSource = some s.source.selected) : s.follow = s := if_pos h

theorem State.follow_of_off (h : s.source.synth = .off) : s.follow = s := by
  simp [State.follow, h]

section
variable (other : s.source.lockSource ≠ some s.source.selected)
include other

theorem State.follow_of_locking (h : s.source.synth = .locking) :
    s.follow = s.setSource (s.source.lockOn .locking (s.source.unitTimer.map fun _ => 0)) := by
  simp [State.follow, other, h]

theorem State.follow_of_relocking (h : s.source.synth = .relocking) :
    s.follow = s.setSource (s.source.lockOn .relocking (some 0)) := by
  simp [State.follow, other, h]

theorem State.follow_of_locked (h : s.source.synth = .locked) :
    s.follow = (s.setSource (s.source.lockOn .relocking (some 0))).coastOn := by
  simp [State.follow, other, h]

end

/-- Following leaves the sources, the window and the selection. -/
theorem State.follow_source_frame (s : State) : s.follow.source.xo = s.source.xo ∧ s.follow.source.ref = s.source.ref ∧
    s.follow.source.windowTimer = s.source.windowTimer ∧ s.follow.source.selected = s.source.selected := by
  unfold State.follow
  repeat' split
  all_goals exact ⟨rfl, rfl, rfl, rfl⟩

@[simp] theorem State.follow_selected : s.follow.source.selected = s.source.selected := s.follow_source_frame.2.2.2

end

/-! ### Selection and failover (R120, R121) -/

@[simp] theorem State.select_selected (x : Source) (s : State) : (s.select x).source.selected = x := State.follow_selected

theorem SourceUnit.failoverTo_of_fit {u : SourceUnit} (h : (u.get u.selected).health = .unhealthy ∧
    (u.get u.selected.other).enabled = true ∧ (u.get u.selected.other).health = .healthy) :
    u.failoverTo = some u.selected.other := if_pos h

theorem SourceUnit.failoverTo_of_unfit {u : SourceUnit} (h : ¬((u.get u.selected).health = .unhealthy ∧
    (u.get u.selected.other).enabled = true ∧ (u.get u.selected.other).health = .healthy)) : u.failoverTo = none := if_neg h

theorem State.failover_of_some {s : State} {x : Source} (h : s.source.failoverTo = some x) : s.failover = s.select x := by
  simp only [State.failover, h]

theorem State.failover_of_none {s : State} (h : s.source.failoverTo = none) : s.failover = s := by
  simp only [State.failover, h]

theorem State.select_of_off {s : State} (h : s.source.synth = .off) (x : Source) :
    s.select x = s.setSource { s.source with selected := x } := State.follow_of_off h

section
variable {s : State} {x : Source} (other : s.source.lockSource ≠ some x)
include other

theorem State.select_of_locking (h : s.source.synth = .locking) : s.select x = s.setSource { s.source with
    selected := x, lockSource := some x, lockCount := 0, unitTimer := s.source.unitTimer.map fun _ => 0 } := by
  have locks := State.follow_of_locking (s := s.setSource { s.source with selected := x }) other h
  rw [State.select, locks, State.setSource_source, SourceUnit.lockOn, ← h]
  rfl

theorem State.select_of_relocking (h : s.source.synth = .relocking) : s.select x = s.setSource { s.source with
    selected := x, lockSource := some x, lockCount := 0, unitTimer := some 0 } := by
  have locks := State.follow_of_relocking (s := s.setSource { s.source with selected := x }) other h
  rw [State.select, locks, State.setSource_source, SourceUnit.lockOn, ← h]
  rfl

/-- A LOCKED synthesizer relocks, coasting (R122): the coast mark is set (R98) and the beacon cut off (R17). -/
theorem State.select_of_locked (h : s.source.synth = .locked) : s.select x = (s.setSource { s.source with
    selected := x, synth := .relocking, lockSource := some x, lockCount := 0, unitTimer := some 0 }).coastOn :=
  State.follow_of_locked (s := s.setSource { s.source with selected := x }) other h

end

/-- The failover rule with the synthesizer OFF moves the selection alone. -/
theorem State.failover_of_off {s : State} (h : s.source.synth = .off) :
    s.failover = s.setSource { s.source with selected := s.source.failoverTo.getD s.source.selected } := by
  cases target : s.source.failoverTo with
  | none => rw [State.failover_of_none target]; rfl
  | some x => rw [State.failover_of_some target, State.select_of_off h]; rfl

/-! ### What R125 decides -/

section
variable {s : State}

theorem State.standbyRule_begins (runs : s.config.earlyActivation = true ∨ s.clockValid = true)
    (off : s.source.synth = .off) (fit : (s.source.get s.source.selected).health ≠ .unhealthy) :
    s.standbyRule = s.setSource (s.source.lockOn .locking (some 0)) := by
  have h : (s.config.earlyActivation || s.clockValid) = true := by simpa using runs
  rw [State.standbyRule, if_pos h, if_pos ⟨off, fit⟩]

theorem State.standbyRule_runs (runs : s.config.earlyActivation = true ∨ s.clockValid = true)
    (keeps : s.source.synth ≠ .off ∨ (s.source.get s.source.selected).health = .unhealthy) : s.standbyRule = s := by
  have h : (s.config.earlyActivation || s.clockValid) = true := by simpa using runs
  rw [State.standbyRule, if_pos h, if_neg (by tauto)]

theorem State.standbyRule_stops (stays : ¬(s.config.earlyActivation = true ∨ s.clockValid = true)) :
    s.standbyRule = s.stopSynth := by
  have h : ¬(s.config.earlyActivation || s.clockValid) = true := by simpa using stays
  rw [State.standbyRule, if_neg h]

/-- A synthesizer already stopped stays so. -/
theorem SourceUnit.stop_of_off {u : SourceUnit} (synth : u.synth = .off) (lock : u.lockSource = none)
    (coasting : u.coasting = false) (timer : u.unitTimer = none) : u.stop = u := by
  cases u
  simp_all [SourceUnit.stop]

end

/-! ### SELECT_SOURCE (R127) -/

theorem SourceUnit.refuseSource_selected {u : SourceUnit} {x : Source} (h : x = u.selected) : u.refuseSource x = none := if_pos h

theorem SourceUnit.refuseSource_unfit {u : SourceUnit} {x : Source} (other : x ≠ u.selected)
    (h : (u.get x).enabled = false ∨ (u.get x).health ≠ .healthy) : u.refuseSource x = some .refusedSource := by
  rw [SourceUnit.refuseSource, if_neg other, if_neg]
  rintro ⟨enabled, healthy⟩
  rcases h with h | h
  · exact Bool.false_ne_true (h.symm.trans enabled)
  · exact h healthy

theorem SourceUnit.refuseSource_fit {u : SourceUnit} {x : Source} (other : x ≠ u.selected)
    (enabled : (u.get x).enabled = true) (healthy : (u.get x).health = .healthy) : u.refuseSource x = none := by
  rw [SourceUnit.refuseSource, if_neg other, if_pos ⟨enabled, healthy⟩]

/-- A SELECT_SOURCE that names a source, taken. -/
theorem exec_selectSource_taken {dt : Elapsed} {s : State} {b : Byte} {x : Source} (named : parseSource b.toNat = some x)
    (passes : (s.request dt).source.refuseSource x = none) : exec (.selectSource dt [b]) s =
    .next ((((s.request dt).takeSelect (some x)).answer .ok [])) := by
  rw [exec_selectSource, natAt_singleton, named,
    State.refuseSelect_named rfl (by rw [natAt_singleton, named]), passes, State.serve_none]
  rfl

/-- Settles O13: the tests in order, and the selection by what the synthesizer does when it moves. -/
theorem selectSourceTested : Obligations.SelectSourceTested := by
  intro dt s b q
  refine ⟨fun unnamed => ?_, fun x named same => ?_, fun x named other unfit => ?_, fun x named other enabled healthy => ?_⟩
  · exact exec_selectSource_refused (State.refuseSelect_unnamed rfl (by rw [natAt_singleton, unnamed]) _)
  · rw [exec_selectSource_taken named (SourceUnit.refuseSource_selected same), State.takeSelect, if_pos same]
  · refine exec_selectSource_refused ?_
    rw [State.refuseSelect_named rfl (by rw [natAt_singleton, named])]
    exact SourceUnit.refuseSource_unfit other unfit
  · refine ⟨_, exec_selectSource_taken named (SourceUnit.refuseSource_fit other enabled healthy), ?_⟩
    have moved : q.takeSelect (some x) = q.select x := if_neg other
    rw [moved]
    refine ⟨rfl, q.select_selected x, fun off => ?off, fun locking unlocked => ?locking, fun relocking unlocked => ?relocking,
      fun locked unlocked => ?locked, by simp [State.answer], by simp [State.answer], by simp [State.answer],
      by simp [State.answer], by simp [State.answer], by simp [State.answer], by simp [State.answer]⟩
    case off =>
      rw [State.select_of_off off]
      exact ⟨rfl, rfl⟩
    case locking =>
      rw [State.select_of_locking unlocked locking]
      exact ⟨rfl, rfl, rfl⟩
    case relocking =>
      rw [State.select_of_relocking unlocked relocking]
      exact ⟨rfl, rfl, rfl⟩
    case locked =>
      rw [State.select_of_locked unlocked locked]
      exact ⟨rfl, rfl, rfl⟩

/-! ### Resets -/

theorem replicate_get {α : Type} (n : Nat) (a : α) (i : Fin n) : (Vector.replicate n a)[i] = a := by
  simp

/-- Settles O3: the power-on values block by block. -/
theorem powerOnResetValues : Obligations.PowerOnResetValues := by
  intro dt busy s
  refine ⟨s.powerOn busy, rfl, rfl, ⟨rfl, rfl, rfl, rfl, rfl, rfl, rfl, rfl, rfl⟩, rfl, rfl, rfl, rfl, rfl,
    ⟨rfl, rfl, rfl, rfl, rfl, rfl, rfl, rfl, rfl⟩, fun i => ?gens, rfl, ⟨NoticeUnit.reset_record 0, fun k other => ?records,
      fun k => ⟨NoticeUnit.reset_enables k, ?priorities⟩⟩, rfl, rfl⟩
  case gens => exact replicate_get ..
  case records => exact (NoticeUnit.reset_record k).trans (if_neg other)
  case priorities => exact replicate_get ..

/-- The station at its reset values, before the failover rule and R125 (R130). -/
def State.resetBlocks (busy : Bool) (s : State) : State where
  pending := s.pending
  link := s.linkAfterReset
  peers := s.peersAfterReset
  agreement := Agreement.reset
  discipline := s.discipline.afterReset
  station := { Station.reset with faultReason := .reset }
  anchor := { Anchor.reset with labelOffset := s.config.labelOffset }
  source := s.sourceAfterReset
  synthTime := s.synthTime
  gens := Vector.replicate 4 Generator.reset
  timecode := { Timecode.reset with binding := s.config.binding }
  notices := restartedNotices s.config.noticeEnables s.config.noticePriorities false
  port := s.port.afterReset busy

theorem State.stationReset_eq (busy : Bool) (s : State) :
    s.stationReset busy = (s.resetBlocks busy).failover.standbyRule := rfl

/-- What the failover rule and R125 make of a source unit whose synthesizer is stopped and a clock that is invalid. -/
def SourceUnit.restarted (u : SourceUnit) (early : Bool) : SourceUnit :=
  let v := { u with selected := u.failoverTo.getD u.selected }
  if early ∧ (v.get v.selected).health ≠ .unhealthy then v.lockOn .locking (some 0) else v

theorem State.failover_standbyRule_of_stopped {s : State} (synth : s.source.synth = .off) (lock : s.source.lockSource = none)
    (coasting : s.source.coasting = false) (timer : s.source.unitTimer = none) (clock : s.discipline.clock = none) :
    s.failover.standbyRule = s.setSource (s.source.restarted s.config.earlyActivation) := by
  have invalid : ∀ u, ¬(s.setSource u).clockValid = true := fun u => by simp [State.clockValid, clock]
  rw [State.failover_of_off synth, SourceUnit.restarted]
  set v : SourceUnit := { s.source with selected := s.source.failoverTo.getD s.source.selected }
  by_cases early : s.config.earlyActivation = true
  · by_cases fit : (v.get v.selected).health ≠ .unhealthy
    · rw [if_pos ⟨early, fit⟩, State.standbyRule_begins (s := s.setSource v) (.inl early) synth fit]
      rfl
    · rw [if_neg fun h => fit h.2, State.standbyRule_runs (s := s.setSource v) (.inl early) (.inr (not_not.mp fit))]
  · have stays : ¬((s.setSource v).config.earlyActivation = true ∨ (s.setSource v).clockValid = true) :=
      not_or.mpr ⟨early, invalid v⟩
    have stopped : v.stop = v := SourceUnit.stop_of_off synth lock coasting timer
    rw [if_neg fun h => early h.1, State.standbyRule_stops stays, State.stopSynth, State.setSource_source, stopped]
    rfl

theorem State.stationReset_frame (busy : Bool) (s : State) : s.stationReset busy =
    (s.resetBlocks busy).setSource ((s.sourceAfterReset).restarted s.config.earlyActivation) :=
  State.failover_standbyRule_of_stopped rfl rfl rfl rfl rfl

theorem restartedNotices_record (enables : Vector Bool 27) (priorities : Vector (Fin 4) 27) (powerOn : Bool) (k : Fin 27) :
    (restartedNotices enables priorities powerOn).records[k] =
      if k = 0 then (if enables[(0 : Fin 27)] then some ⟨0, none, .restarted powerOn⟩ else none) else none := by
  have empty : (Vector.replicate 27 none : Vector (Option PendingRecord) 27)[k] = none := by simp
  have kind : (Notice.restarted powerOn).kind = 0 := rfl
  rw [restartedNotices, NoticeUnit.occur_record]
  simp only [empty, kind]
  by_cases zero : k = 0
  · subst zero
    cases enables[(0 : Fin 27)] <;> simp
  · simp [zero]

theorem PeerTable.rebuilt_entry (slot : Fin 32) (tag : Nat) (i : Fin 32) :
    (PeerTable.rebuilt slot tag).entries[i] = if i = slot then PeerEntry.own tag else PeerEntry.empty := tabulate_get ..

theorem PeerTable.reset_entry (i : Fin 32) : PeerTable.reset.entries[i] = PeerEntry.empty := by
  simp [PeerTable.reset]

theorem State.peersAfterReset_entry (s : State) (i : Fin 32) : s.peersAfterReset.entries[i] =
    if s.configured = true ∧ i = s.config.slot then PeerEntry.own s.config.tag else PeerEntry.empty := by
  unfold State.peersAfterReset
  split
  next configured => simp only [PeerTable.rebuilt_entry, configured, true_and]
  next unconfigured => rw [PeerTable.reset_entry, if_neg fun h => unconfigured h.1]

theorem State.peersAfterReset_hold (s : State) : s.peersAfterReset.hold = 0 := by
  unfold State.peersAfterReset
  split <;> rfl

section
variable (u : SourceUnit) (early : Bool)

theorem SourceUnit.restarted_frame : (u.restarted early).xo = u.xo ∧ (u.restarted early).ref = u.ref ∧
    (u.restarted early).windowTimer = u.windowTimer ∧ (u.restarted early).coasting = u.coasting ∧
    (u.restarted early).selected = u.failoverTo.getD u.selected := by
  unfold SourceUnit.restarted
  simp only
  split <;> exact ⟨rfl, rfl, rfl, rfl, rfl⟩

@[simp] theorem SourceUnit.restarted_get (x : Source) : (u.restarted early).get x = u.get x := by
  obtain ⟨xo, ref, -⟩ := u.restarted_frame early
  cases x
  · exact xo
  · exact ref

theorem SourceUnit.restarted_selected : (u.restarted early).selected = u.failoverTo.getD u.selected :=
  (u.restarted_frame early).2.2.2.2

end

section
variable {u : SourceUnit} {early : Bool}

/-- A stopped synthesizer begins no lock without early activation, or on an UNHEALTHY source. -/
theorem SourceUnit.restarted_off
    (h : early = false ∨ ((u.restarted early).get (u.restarted early).selected).health = .unhealthy) :
    u.restarted early = { u with selected := u.failoverTo.getD u.selected } := by
  rw [SourceUnit.restarted_selected, SourceUnit.restarted_get] at h
  refine if_neg ?_
  rintro ⟨on, fit⟩
  rcases h with off | unfit
  · exact Bool.false_ne_true (off.symm.trans on)
  · exact fit unfit

theorem SourceUnit.restarted_locks (on : early = true)
    (h : ((u.restarted early).get (u.restarted early).selected).health ≠ .unhealthy) :
    u.restarted early = { u with selected := u.failoverTo.getD u.selected }.lockOn .locking (some 0) := by
  rw [SourceUnit.restarted_selected, SourceUnit.restarted_get] at h
  exact if_pos ⟨on, h⟩

end

/-- A source after it takes its enable from the record (log 42). -/
theorem SourceRecord.setEnable_eq (r : SourceRecord) (on : Bool) : r.setEnable on = if r.enabled = on then r
    else if on then ⟨true, .learning, 0, 0, 0, false⟩ else ⟨false, .disabled, 0, 0, 0, false⟩ := rfl

/-- Settles O4: every block at its reset value, then the Source Unit by the failover rule and R125. -/
theorem stationResetValues : Obligations.StationResetValues := by
  intro dt busy s
  refine ⟨(s.elapse dt).stationReset busy, ?_⟩
  intro u enabled first replaced unfit
  have frame : (s.elapse dt).stationReset busy = _ := u.stationReset_frame busy
  have source : ((s.elapse dt).stationReset busy).source = u.sourceAfterReset.restarted u.config.earlyActivation := by rw [frame]; rfl
  obtain ⟨xo, ref, window, coasting, selected⟩ := u.sourceAfterReset.restarted_frame u.config.earlyActivation
  have get : ∀ x, ((s.elapse dt).stationReset busy).source.get x = u.sourceAfterReset.get x := fun x => by
    rw [source, SourceUnit.restarted_get]
  refine ⟨rfl, by rw [frame]; exact s.elapse_pending dt, by rw [frame]; rfl,
    by rw [frame]; exact ⟨rfl, rfl, rfl, rfl, rfl, rfl, rfl, rfl⟩,
    fun configured => ?pointer, fun unconfigured => ?noPointer, fun i => ?entries, ?hold, by rw [frame]; rfl,
    by rw [frame]; exact ⟨rfl, rfl, rfl, rfl, rfl, rfl, rfl, rfl, rfl⟩, by rw [frame]; rfl, by rw [frame]; rfl,
    ⟨by rw [source]; exact window, by rw [source]; exact coasting, by rw [source]; exact xo, by rw [source]; exact ref,
      fun h => ?replaced, fun h => ?kept, fun h => ?off, fun early fit => ?locks⟩, fun i => ?gens, by rw [frame]; rfl,
    ⟨?enables, ?priorities, ?restarted, fun k other => ?empty⟩, by rw [frame]; exact ⟨rfl, rfl, rfl⟩⟩
  case pointer => rw [frame]; exact if_pos configured
  case noPointer => rw [frame]; exact if_neg (by simp [unconfigured])
  case entries => rw [frame]; exact u.peersAfterReset_entry i
  case hold => rw [frame]; exact u.peersAfterReset_hold
  case replaced =>
    have fails : u.sourceAfterReset.failoverTo = some first.other :=
      SourceUnit.failoverTo_of_fit (by simp only [replaced, get] at h; exact h)
    rw [source, selected, fails]
    rfl
  case kept =>
    have stays : u.sourceAfterReset.failoverTo = none :=
      SourceUnit.failoverTo_of_unfit (by simp only [replaced, get] at h; exact h)
    rw [source, selected, stays]
    rfl
  case off =>
    simp only [unfit] at h
    rw [source] at h ⊢
    rw [SourceUnit.restarted_off h]
    exact ⟨rfl, rfl, rfl, rfl⟩
  case locks =>
    simp only [unfit] at fit
    rw [source] at fit ⊢
    rw [SourceUnit.restarted_locks early fit]
    exact ⟨rfl, rfl, rfl, rfl⟩
  case gens => rw [frame]; exact replicate_get ..
  case enables | priorities => rw [frame]; simp [State.resetBlocks, restartedNotices, NoticeUnit.occur]; split <;> rfl
  case restarted => rw [frame]; exact restartedNotices_record _ _ _ 0
  case empty => rw [frame]; exact (restartedNotices_record _ _ _ k).trans (if_neg other)

end Sys2Proof.Machine
end

section
/-! PROOFS. The transitions said once (R4, R19, R21 to R25, R38, R41, R125): what an entry leaves of each block and what it
reports; then JOIN (R23) and WITHDRAW (R38). -/

namespace Sys2Proof.Machine

/-! ### Every entry (R4, R19, R21) -/

section
variable (st : StationState) (c : Cause) (s : State)

/-- A reception mode ends what belongs to the window and the beacon, and leaves the rest of the Link Unit. -/
theorem State.enterMode_link (m : ReceptionMode) : (s.enterMode m).link = { s.link with
    mode := m, built := (s.enterMode m).link.built, readBack := (s.enterMode m).link.readBack
    toJudge := (s.enterMode m).link.toJudge, judged := (s.enterMode m).link.judged
    buildOpen := (s.enterMode m).link.buildOpen, trail := (s.enterMode m).link.trail } := by
  cases m <;> rfl

/-- The collision count after an entry (R19): 0 where the station begins to transmit. -/
theorem State.move_link : (s.move st c).link = { s.link with
    mode := st.mode, listenRound := none
    collisions := if !s.station.state.transmits && st.transmits then 0 else s.link.collisions
    built := (s.move st c).link.built, readBack := (s.move st c).link.readBack, toJudge := (s.move st c).link.toJudge
    judged := (s.move st c).link.judged, buildOpen := (s.move st c).link.buildOpen, trail := (s.move st c).link.trail } := by
  simp only [State.move]
  conv_lhs => rw [State.enterMode_link]
  simp

/-- Between states that transmit nothing of the Link Unit changes but the round of LISTEN. -/
theorem State.move_link_of_windowed (windowed : st.mode = .windowed) : (s.move st c).link = { s.link with
    mode := .windowed, listenRound := none
    collisions := if !s.station.state.transmits && st.transmits then 0 else s.link.collisions } := by
  simp [State.move, windowed, State.enterMode]

@[simp] theorem State.move_state : (s.move st c).station.state = st := by
  rw [State.move_station]

@[simp] theorem State.move_config : (s.move st c).config = s.config := by
  simp [State.config]

theorem State.move_reports : Reports s (s.move st c) (.stateChanged st c) :=
  (Reports.raise s _).after (by rw [State.move_notices])

@[simp] theorem State.move_enables : (s.move st c).notices.enables = s.notices.enables := by
  rw [State.move_notices, raise_enables]

end

/-! ### Entry into LISTEN (R22, R25) -/

section
variable (c : Cause) (s : State)

theorem State.enterListen_station : (s.enterListen c).station = { s.station with
    state := .listen, listenTimer := some (4 + s.config.slot.val + s.station.extraListen), extraListen := 0
    listenNotice := false, lockTime := none } := by
  simp [State.enterListen, State.move_station, State.listenLength, FaultReason.after]

theorem State.enterListen_notices : (s.enterListen c).notices = (s.raise (.stateChanged .listen c)).notices := by
  simp [State.enterListen, State.move_notices]

theorem State.enterListen_reports : Reports s (s.enterListen c) (.stateChanged .listen c) :=
  (Reports.raise s _).after (by rw [State.enterListen_notices])

theorem State.enterListen_mode : (s.enterListen c).link.mode = .openMode := by
  simp [State.enterListen, State.move_mode, StationState.mode]

end

/-! ### Entry into STALLED (R41) -/

section
variable (s : State)

theorem State.enterStalled_station : s.enterStalled.station = { s.station with
    state := .stalled, faultReason := .cause .source, listenTimer := none, lockTime := none
    foundingTimer := 0, settleCount := 0, silenceCount := 0, withdrawCount := 0 } := by
  simp [State.enterStalled, State.move_station, Station.stall, FaultReason.after]

end

/-! ### Entry into STARTING (R22, R24, R120, R124) -/

section
variable {s : State}

theorem State.startUpLock_of_off (h : s.source.synth = .off) :
    s.startUpLock = s.setSource (s.source.lockOn .locking none) := by
  simp [State.startUpLock, h]

theorem State.startUpLock_of_locking (h : s.source.synth = .locking) :
    s.startUpLock = s.setSource { s.source with unitTimer := none } := by
  simp [State.startUpLock, h]

theorem State.startUpLock_of_relocking (h : s.source.synth = .relocking) : s.startUpLock = s := by
  simp [State.startUpLock, h]

/-- The condition of a source loss is read from the sources and the selection. -/
theorem SourceUnit.lost_congr {u v : SourceUnit} (xo : u.xo = v.xo) (ref : u.ref = v.ref) (selected : u.selected = v.selected) :
    u.lost = v.lost := by
  have get : ∀ x, u.get x = v.get x := fun x => by cases x <;> simpa [SourceUnit.get]
  simp [SourceUnit.lost, SourceUnit.failoverTo, get, selected]

theorem State.startUpLock_lost (s : State) : s.startUpLock.source.lost = s.source.lost := by
  unfold State.startUpLock
  split
  all_goals exact SourceUnit.lost_congr rfl rfl rfl

/-- The entry into STARTING as far as its source loss (R22, R24): the lock time and a lock begin. -/
def State.starts (s : State) (c : Cause) : State :=
  ((s.move .starting c).setStation { (s.move .starting c).station with lockTime := some 0 }).startUpLock

theorem State.starts_lost (s : State) (c : Cause) : (s.starts c).source.lost = s.source.lost := by
  rw [State.starts, State.startUpLock_lost, State.setStation_source, State.move_source]

theorem State.enterStarting_of_sound {c : Cause} (sound : s.source.lost = false) : s.enterStarting c = s.starts c := by
  have stays : (s.starts c).source.lost = false := by rw [State.starts_lost, sound]
  exact if_neg (by rw [Bool.not_eq_true]; exact stays)

theorem State.enterStarting_of_lost {c : Cause} (lost : s.source.lost = true) :
    s.enterStarting c = (s.starts c).enterStalled := by
  have loses : (s.starts c).source.lost = true := by rw [State.starts_lost, lost]
  exact if_pos loses

end

section
variable (s : State) (c : Cause)

theorem State.starts_station : (s.starts c).station.state = .starting ∧ (s.starts c).station.lockTime = some 0 := by
  simp [State.starts]

theorem State.starts_reports : Reports s (s.starts c) (.stateChanged .starting c) :=
  (State.move_reports .starting c s).after (by simp [State.starts])

theorem State.starts_mode : (s.starts c).link.mode = .off := by
  simp [State.starts, State.move_mode, StationState.mode]

theorem State.starts_frame : (s.starts c).discipline = s.discipline ∧ (s.starts c).peers = s.peers ∧
    (s.starts c).agreement = s.agreement ∧ (s.starts c).anchor = s.anchor ∧ (s.starts c).gens = s.gens ∧
    (s.starts c).timecode = s.timecode ∧ (s.starts c).synthTime = s.synthTime ∧ (s.starts c).port = s.port := by
  simp [State.starts]

theorem State.starts_source_of_off (off : s.source.synth = .off) : (s.starts c).source = { s.source with
    synth := .locking, lockSource := some s.source.selected, lockCount := 0, unitTimer := none } := by
  rw [State.starts, State.startUpLock_of_off (by simpa using off)]
  simp [SourceUnit.lockOn]

theorem State.starts_source_of_locking (locking : s.source.synth = .locking) :
    (s.starts c).source = { s.source with unitTimer := none } := by
  rw [State.starts, State.startUpLock_of_locking (by simpa using locking)]
  simp

theorem State.starts_source_of_relocking (relocking : s.source.synth = .relocking) : (s.starts c).source = s.source := by
  rw [State.starts, State.startUpLock_of_relocking (by simpa using relocking)]
  simp

end

/-! ### JOIN (R23, R101) -/

section
variable (s : State)

theorem State.loadHoldover_discipline : s.loadHoldover.discipline.clock = s.discipline.clock ∧
    s.loadHoldover.discipline.rate =
      if s.discipline.holdoverValid then s.discipline.holdoverValue else s.discipline.rate := by
  unfold State.loadHoldover
  simp only
  split
  next valid => simp [valid]
  next invalid => simp

@[simp] theorem State.loadHoldover_enables : s.loadHoldover.notices.enables = s.notices.enables := by
  unfold State.loadHoldover
  simp only
  split <;> simp

@[simp] theorem State.loadHoldover_config : s.loadHoldover.config = s.config := by
  simp [State.config]

end

theorem exec_join_taken {dt : Elapsed} {s : State} (standby : (s.request dt).station.state = .standby)
    (configured : (s.request dt).configured = true) : exec (.join dt []) s =
    .next ((s.request dt).takeJoin.setPort
      { (s.request dt).takeJoin.port with response := [0x00#8, 0x00#8, 0x00#8, 0x00#8] }) := by
  have passes : (s.request dt).refuseJoin [] = none := gate_own rfl (by simp [standby, configured]) rfl
  rw [exec_join, passes, State.serve_noData]

theorem State.takeJoin_of_locked {s : State} (h : s.source.synth = .locked) : s.takeJoin = s.loadHoldover.enterListen .joined :=
  if_pos (by rw [State.loadHoldover_source, h])

theorem State.takeJoin_of_unlocked {s : State} (h : s.source.synth ≠ .locked) :
    s.takeJoin = s.loadHoldover.enterStarting .joined :=
  if_neg (by rwa [State.loadHoldover_source])

/-- Settles O8: by the synthesizer JOIN finds, and by the source loss that STARTING finds. -/
theorem joinMovesOn : Obligations.JoinMovesOn := by
  intro dt s q
  obtain ⟨clock, rate⟩ := q.loadHoldover_discipline
  refine ⟨fun standby configured locked => ?listen, fun standby configured unlocked sound => ?starting,
    fun standby configured unlocked lost => ?stalled, fun refused => ?refused⟩
  case listen =>
    refine ⟨_, exec_join_taken standby configured, ?_⟩
    have listens : (s.request dt).takeJoin = q.loadHoldover.enterListen .joined := State.takeJoin_of_locked locked
    rw [listens]
    have station := State.enterListen_station .joined q.loadHoldover
    simp only [State.loadHoldover_station, State.loadHoldover_config] at station
    refine ⟨by rw [State.setPort_port], by simp [station], ?_, by simp [station], by simp [station], ?_, ?_, ?_,
      by simp, by simp, by simp, by simp, by simp, by simp, by simp, by simp⟩
    · exact (State.enterListen_reports .joined q.loadHoldover).before q.loadHoldover_enables
    · rw [State.setPort_link, State.enterListen_mode]
    · simpa using clock
    · simpa using rate
  case starting =>
    refine ⟨_, exec_join_taken standby configured, ?_⟩
    have loaded : q.loadHoldover.source.lost = false := by rw [State.loadHoldover_source, sound]
    have started : (s.request dt).takeJoin = q.loadHoldover.starts .joined :=
      (State.takeJoin_of_unlocked unlocked).trans (State.enterStarting_of_sound loaded)
    rw [started]
    obtain ⟨state, lockTime⟩ := q.loadHoldover.starts_station .joined
    obtain ⟨discipline, peers, agreement, anchor, gens, timecode, synthTime, port⟩ := q.loadHoldover.starts_frame .joined
    have source := q.loadHoldover_source
    refine ⟨by rw [State.setPort_port], state, ?_, lockTime, State.starts_mode _ _, ?_, ?_, fun off => ?_,
      fun locking => ?_, fun relocking => ?_, ?_, ?_, ?_, ?_, ?_, ?_, ?_⟩
    · exact (State.starts_reports q.loadHoldover .joined).before q.loadHoldover_enables
    · rw [State.setPort_discipline, discipline, clock]
    · rw [State.setPort_discipline, discipline, rate]
    · rw [State.setPort_source, State.starts_source_of_off _ _ (by rw [source, off]), source]
    · rw [State.setPort_source, State.starts_source_of_locking _ _ (by rw [source, locking]), source]
    · rw [State.setPort_source, State.starts_source_of_relocking _ _ (by rw [source, relocking]), source]
    · rw [State.setPort_peers, peers, State.loadHoldover_peers]
    · rw [State.setPort_agreement, agreement, State.loadHoldover_agreement]
    · rw [State.setPort_anchor, anchor, State.loadHoldover_anchor]
    · rw [State.setPort_gens, gens, State.loadHoldover_gens]
    · rw [State.setPort_timecode, timecode, State.loadHoldover_timecode]
    · rw [State.setPort_synthTime, synthTime, State.loadHoldover_synthTime]
    · rw [State.setPort_port, port, State.loadHoldover_port]
  case stalled =>
    refine ⟨_, exec_join_taken standby configured, ?_⟩
    have loaded : q.loadHoldover.source.lost = true := by rw [State.loadHoldover_source, lost]
    rw [show (s.request dt).takeJoin = _ from State.takeJoin_of_unlocked unlocked, State.enterStarting_of_lost loaded,
      State.setPort_station, State.enterStalled_station]
    exact ⟨rfl, rfl⟩
  case refused =>
    refine exec_join_refused (State.refuseJoin_state rfl fun ⟨standby, configured⟩ => ?_)
    rcases refused with elsewhere | unconfigured
    · exact elsewhere standby
    · exact Bool.false_ne_true (unconfigured.symm.trans configured)

end Sys2Proof.Machine
end

section
/-! PROOFS. The entries into STANDBY and WITHDRAWING said once (R38, R85, R124, R125, R142, R144), and WITHDRAW (R38). -/

namespace Sys2Proof.Machine

/-! ### The clock lost and the lock given up (R85, R106, R124, R144) -/

section
variable (s : State)

theorem State.dropAnchor_record (c : AnchorCause) {k : Fin 27} (other : k ≠ 17) :
    (s.dropAnchor c).notices.records[k] = s.notices.records[k] := by
  unfold State.dropAnchor
  simp only
  split
  · rw [raise_record_other _ _ _ (by simpa [Notice.kind] using other), State.setAnchor_notices]
  · rfl

/-- The loss of the clock reports of the anchor alone (R106). -/
theorem State.loseClock_record {k : Fin 27} (other : k ≠ 17) : s.loseClock.notices.records[k] = s.notices.records[k] := by
  unfold State.loseClock
  split
  · exact State.dropAnchor_record _ _ other
  · rfl

theorem State.loseClock_clock : s.loseClock.discipline.clock = none := by
  unfold State.loseClock
  split
  next => simp [State.invalidateClock, State.endRuns]
  next invalid => simpa [State.clockValid] using invalid

theorem State.loseClock_mode : s.loseClock.link.mode = s.link.mode := by
  unfold State.loseClock
  split <;> simp [State.invalidateClock, State.endRuns]

theorem State.loseClock_rate : s.loseClock.discipline.rate = s.discipline.rate := by
  unfold State.loseClock
  split <;> simp [State.invalidateClock, State.endRuns]

theorem State.abandonLock_of_relocking (h : s.source.synth = .relocking) : s.abandonLock = s.stopSynth.loseClock := if_pos h

theorem State.abandonLock_of_other (h : s.source.synth ≠ .relocking) : s.abandonLock = s.stopSynth := if_neg h

/-- The clock outlasts a lock given up unless the lock is a relock (R85, R124). -/
theorem State.abandonLock_clockValid :
    s.abandonLock.clockValid = true ↔ s.discipline.clock.isSome = true ∧ s.source.synth ≠ .relocking := by
  by_cases h : s.source.synth = .relocking
  · simp [State.abandonLock_of_relocking s h, State.clockValid, State.loseClock_clock, h]
  · simp [State.abandonLock_of_other s h, State.clockValid, State.stopSynth, h]

theorem State.abandonLock_mode : s.abandonLock.link.mode = s.link.mode := by
  unfold State.abandonLock
  split <;> simp [State.loseClock_mode, State.stopSynth]

theorem State.abandonLock_rate : s.abandonLock.discipline.rate = s.discipline.rate := by
  unfold State.abandonLock
  split <;> simp [State.loseClock_rate, State.stopSynth]

theorem State.abandonLock_record {k : Fin 27} (other : k ≠ 17) :
    s.abandonLock.notices.records[k] = s.notices.records[k] := by
  unfold State.abandonLock
  split <;> simp [State.loseClock_record _ other, State.stopSynth]

end

/-! ### Entry into STANDBY (R22, R38, R125) -/

/-- The station on its way into STANDBY as R125 finds it: the move made, the generators withdrawn, and the lock given up
where the entry abandons one. -/
def State.beforeStandbyRule (s : State) (c : Cause) : State :=
  if s.abandonsLock c then ((s.move .standby c).withdrawGens).abandonLock else (s.move .standby c).withdrawGens

section
variable {s : State} {c : Cause}

theorem State.beforeStandbyRule_of_abandons (h : s.abandonsLock c = true) :
    s.beforeStandbyRule c = ((s.move .standby c).withdrawGens).abandonLock := if_pos h

theorem State.beforeStandbyRule_of_keeps (h : s.abandonsLock c = false) :
    s.beforeStandbyRule c = (s.move .standby c).withdrawGens := if_neg (by rw [h]; exact Bool.false_ne_true)

theorem State.enterStandby_eq (s : State) (c : Cause) : s.enterStandby c = (s.beforeStandbyRule c).standbyRule := rfl

theorem State.beforeStandbyRule_source : (s.beforeStandbyRule c).source =
    if s.abandonsLock c then s.source.stop else s.source := by
  cases h : s.abandonsLock c
  · simp [State.beforeStandbyRule_of_keeps h]
  · simp [State.beforeStandbyRule_of_abandons h]

theorem State.beforeStandbyRule_clockValid : (s.beforeStandbyRule c).clockValid = true ↔
    s.discipline.clock.isSome = true ∧ ¬(s.abandonsLock c = true ∧ s.source.synth = .relocking) := by
  cases h : s.abandonsLock c
  · simp [State.beforeStandbyRule_of_keeps h, State.clockValid]
  · simp [State.beforeStandbyRule_of_abandons h, State.abandonLock_clockValid]

@[simp] theorem State.abandonLock_config (s : State) : s.abandonLock.config = s.config := by
  simp [State.config]

@[simp] theorem State.withdrawGens_config (s : State) : s.withdrawGens.config = s.config := by
  simp [State.config]

theorem State.beforeStandbyRule_config : (s.beforeStandbyRule c).config = s.config := by
  unfold State.beforeStandbyRule
  split <;> simp

theorem State.enterStandby_reports (s : State) (c : Cause) : Reports s (s.enterStandby c) (.stateChanged .standby c) := by
  refine (State.move_reports .standby c s).after ?_
  rw [State.enterStandby_eq, State.standbyRule_notices]
  unfold State.beforeStandbyRule
  split
  · exact State.abandonLock_record _ (show (1 : Fin 27) ≠ 17 by decide)
  · rfl

theorem State.enterStandby_station (s : State) (c : Cause) : (s.enterStandby c).station = (s.move .standby c).station := by
  rw [State.enterStandby_eq, State.standbyRule_station]
  unfold State.beforeStandbyRule
  split <;> simp

theorem State.enterStandby_mode (s : State) (c : Cause) : (s.enterStandby c).link.mode = .off := by
  rw [State.enterStandby_eq, State.standbyRule_link]
  unfold State.beforeStandbyRule
  split <;> simp [State.abandonLock_mode, State.move_mode, StationState.mode]

theorem State.enterStandby_rate (s : State) (c : Cause) : (s.enterStandby c).discipline.rate = s.discipline.rate := by
  rw [State.enterStandby_eq, State.standbyRule_discipline]
  unfold State.beforeStandbyRule
  split <;> simp [State.abandonLock_rate]

/-- An entry that gives no relock up keeps the clock and the anchor. -/
theorem State.enterStandby_keepsClock (other : s.source.synth ≠ .relocking) :
    (s.enterStandby c).discipline = s.discipline ∧ (s.enterStandby c).anchor = s.anchor := by
  rw [State.enterStandby_eq, State.standbyRule_discipline, State.standbyRule_anchor]
  unfold State.beforeStandbyRule
  split
  · rw [State.abandonLock_of_other _ (by simpa using other)]
    simp [State.stopSynth]
  · simp

theorem State.withdrawGens_get (s : State) (i : Fin 4) :
    s.withdrawGens.gens[i] = s.gens[i].withdraw s.config.gens[i].onWithdraw := tabulate_get ..

/-- An entry that gives a relock up loses the clock (R85, R144). -/
theorem State.enterStandby_losesClock (abandons : s.abandonsLock c = true) (relocking : s.source.synth = .relocking)
    (valid : s.discipline.clock.isSome = true) : LosesClock s (s.enterStandby c) := by
  have loses : s.enterStandby c = ((s.move .standby c).withdrawGens).stopSynth.loseClock.standbyRule := by
    rw [State.enterStandby_eq, State.beforeStandbyRule_of_abandons abandons,
      State.abandonLock_of_relocking _ (by simpa using relocking)]
  rw [loses]
  refine LosesClock.of (s := ((s.move .standby c).withdrawGens).stopSynth) ?_ (fun i => ?_) ?_ ?_ ?_ ?_ ?_ ?_
  · simpa [State.clockValid, State.stopSynth] using valid
  · simp only [State.stopSynth, State.setSource_gens]
    rw [State.withdrawGens_get, Generator.endRun_withdraw, State.move_gens]
  all_goals simp [State.stopSynth]

/-! ### What R125 makes of the Source Unit -/

theorem SourceUnit.stop_stop (u : SourceUnit) : u.stop.stop = u.stop := rfl

theorem SourceUnit.stop_get (u : SourceUnit) (x : Source) : u.stop.get x = u.get x := by
  cases x <;> rfl

theorem State.enterStandby_source_stops (stays : ¬(s.config.earlyActivation = true ∨ (s.beforeStandbyRule c).clockValid = true)) :
    (s.enterStandby c).source = s.source.stop := by
  rw [State.enterStandby_eq, State.standbyRule_stops (by rwa [State.beforeStandbyRule_config]), State.stopSynth,
    State.setSource_source, State.beforeStandbyRule_source]
  split <;> rfl

theorem State.enterStandby_source_begins (runs : s.config.earlyActivation = true ∨ (s.beforeStandbyRule c).clockValid = true)
    (off : (s.beforeStandbyRule c).source.synth = .off) (fit : (s.source.get s.source.selected).health ≠ .unhealthy) :
    (s.enterStandby c).source = { (s.beforeStandbyRule c).source with
      synth := .locking, lockSource := some s.source.selected, lockCount := 0, unitTimer := some 0 } := by
  have selected : (s.beforeStandbyRule c).source.selected = s.source.selected := by
    rw [State.beforeStandbyRule_source]; split <;> rfl
  have get : (s.beforeStandbyRule c).source.get s.source.selected = s.source.get s.source.selected := by
    rw [State.beforeStandbyRule_source]; split <;> simp [SourceUnit.stop_get]
  rw [State.enterStandby_eq, State.standbyRule_begins (by rwa [State.beforeStandbyRule_config]) off
    (by rwa [selected, get]), State.setSource_source]
  simp [SourceUnit.lockOn, selected]

theorem State.enterStandby_source_runs (runs : s.config.earlyActivation = true ∨ (s.beforeStandbyRule c).clockValid = true)
    (keeps : (s.beforeStandbyRule c).source.synth ≠ .off ∨ (s.source.get s.source.selected).health = .unhealthy) :
    (s.enterStandby c).source = (s.beforeStandbyRule c).source := by
  have health : ((s.beforeStandbyRule c).source.get (s.beforeStandbyRule c).source.selected).health =
      (s.source.get s.source.selected).health := by
    rw [State.beforeStandbyRule_source]
    split
    · exact congrArg _ (SourceUnit.stop_get ..)
    · rfl
  rw [State.enterStandby_eq, State.standbyRule_runs (by rwa [State.beforeStandbyRule_config]) (by rwa [health])]

end

/-! ### WITHDRAW (R38) -/

theorem exec_withdraw_taken {dt : Elapsed} {s : State} (h : (s.request dt).station.state.withdraws = true) :
    exec (.withdraw dt []) s = .next ((s.request dt).takeWithdraw.setPort
      { (s.request dt).takeWithdraw.port with response := [0x00#8, 0x00#8, 0x00#8, 0x00#8] }) := by
  have passes : (s.request dt).refuseWithdraw [] = none := gate_own rfl h rfl
  rw [exec_withdraw, passes, State.serve_noData]

section
variable {s : State}

theorem State.takeWithdraw_of_transmitting (h : s.station.state = .founding ∨ s.station.state = .joining ∨
    s.station.state = .agreed ∨ s.station.state = .isolated) : s.takeWithdraw = s.enterWithdrawing .withdraw := by
  rcases h with h | h | h | h <;> simp [State.takeWithdraw, h]

theorem State.takeWithdraw_of_silent (h : s.station.state = .starting ∨ s.station.state = .listen ∨
    s.station.state = .stalled) : s.takeWithdraw = s.enterStandby .withdrawn := by
  rcases h with h | h | h <;> simp [State.takeWithdraw, h]

theorem State.enterWithdrawing_station (c : Cause) (s : State) : (s.enterWithdrawing c).station =
    { (s.move .withdrawing c).station with withdrawCount := 0 } := by
  simp [State.enterWithdrawing]

theorem State.enterWithdrawing_reports (c : Cause) (s : State) :
    Reports s (s.enterWithdrawing c) (.stateChanged .withdrawing c) :=
  (State.move_reports .withdrawing c s).after (by simp [State.enterWithdrawing])

theorem State.enterWithdrawing_link (c : Cause) (transmits : s.station.state.transmits = true) :
    (s.enterWithdrawing c).link.mode = .windowed ∧ (s.enterWithdrawing c).link.collisions = s.link.collisions := by
  simp only [State.enterWithdrawing]
  rw [State.openOccasion_link, State.setStation_link, State.move_link_of_windowed _ _ _ rfl, transmits]
  exact ⟨rfl, rfl⟩

end

/-- Settles O9: by the station state; in STANDBY by what R125 finds of the clock and the synthesizer. -/
theorem withdrawByState : Obligations.WithdrawByState := by
  intro dt s q
  refine ⟨fun transmitting => ?withdrawing, fun silent => ?standby, fun refused => ?refused⟩
  case withdrawing =>
    have withdraws : q.station.state.withdraws = true := by
      rcases transmitting with h | h | h | h <;> rw [h] <;> rfl
    have transmits : q.station.state.transmits = true := by
      rcases transmitting with h | h | h | h <;> rw [h] <;> rfl
    refine ⟨_, exec_withdraw_taken withdraws, ?_⟩
    have taken : (s.request dt).takeWithdraw = q.enterWithdrawing .withdraw := State.takeWithdraw_of_transmitting transmitting
    rw [taken]
    obtain ⟨mode, collisions⟩ := State.enterWithdrawing_link .withdraw transmits
    have station := q.enterWithdrawing_station .withdraw
    refine ⟨by rw [State.setPort_port], by rw [State.setPort_station, station]; simp,
      q.enterWithdrawing_reports .withdraw, by rw [State.setPort_station, station], mode, collisions, ?_, ?_, ?_, ?_, ?_,
      ?_, ?_, ?_, ?fault, ?seed⟩
    case fault => rw [State.setPort_station, station, State.move_station]; rfl
    case seed => rw [State.setPort_station, station, State.move_station]
    all_goals simp [State.enterWithdrawing]
  case standby =>
    have withdraws : q.station.state.withdraws = true := by
      rcases silent with h | h | h <;> rw [h] <;> rfl
    refine ⟨_, exec_withdraw_taken withdraws, ?_⟩
    have taken : (s.request dt).takeWithdraw = q.enterStandby .withdrawn := State.takeWithdraw_of_silent silent
    rw [taken]
    have station := (q.enterStandby_station .withdrawn).trans (State.move_station ..)
    refine ⟨by rw [State.setPort_port], by rw [State.setPort_station, station],
      q.enterStandby_reports .withdrawn, by rw [State.setPort_station, station]; rfl,
      by rw [State.setPort_station, station], by rw [State.setPort_station, station],
      q.enterStandby_mode .withdrawn, by simp, by simp, by simp, ?_, by simp,
      by rw [State.setPort_station, station], ?_⟩
    · rw [State.setPort_discipline, State.enterStandby_rate]
    rw [State.setPort_source, State.setPort_discipline, State.setPort_anchor]
    intro abandoned kept fit off
    have abandons : q.abandonsLock .withdrawn = true ↔ abandoned := State.abandonsLock_withdrawn silent
    have valid : (q.beforeStandbyRule .withdrawn).clockValid = true ↔ kept := by
      rw [State.beforeStandbyRule_clockValid, abandons]
      exact and_congr_right fun _ => ⟨fun h k => h ⟨.inr (.inr k), k⟩, fun h k => h k.2⟩
    refine ⟨fun relocking clock => ?lost, fun other => State.enterStandby_keepsClock other, fun late gone => ?stops,
      fun runs => ?runs⟩
    case lost => exact State.enterStandby_losesClock (abandons.mpr (.inr (.inr relocking))) relocking clock
    case stops =>
      exact State.enterStandby_source_stops fun h => h.elim (by simp [late]) fun h => gone (valid.mp h)
    case runs =>
      have runs : q.config.earlyActivation = true ∨ (q.beforeStandbyRule .withdrawn).clockValid = true :=
        runs.imp_right valid.mpr
      have source := State.beforeStandbyRule_source (s := q) (c := .withdrawn)
      refine ⟨fun gives sound => ?_, fun gives unfit => ?_, fun holds stopped sound => ?_, fun holds keeps => ?_⟩
      · rw [if_pos (abandons.mpr gives)] at source
        rw [State.enterStandby_source_begins runs (by rw [source]; rfl) sound, source]
        rfl
      · rw [if_pos (abandons.mpr gives)] at source
        rw [State.enterStandby_source_runs runs (.inr (not_not.mp unfit)), source]
        rfl
      · rw [if_neg fun h => holds (abandons.mp h)] at source
        rw [State.enterStandby_source_begins runs (by rw [source, stopped]) sound, source]
      · rw [if_neg fun h => holds (abandons.mp h)] at source
        rw [State.enterStandby_source_runs runs (by rw [source]; exact keeps.imp_right not_not.mp), source]
  case refused =>
    refine exec_withdraw_refused (State.refuseWithdraw_state rfl fun ⟨notStandby, notWithdrawing⟩ => ?_)
    exact refused.elim notStandby notWithdrawing

end Sys2Proof.Machine
end

section
/-! PROOFS. Frames on the timing line: which are discarded, which clash, and which reach a Peer Table entry (R4, R8 to R12);
and the close of the own window (R18, R19). -/

namespace Sys2Proof.Machine

/-! ### The way of a frame (R4, R9, R12) -/

section
variable {bytes : List Byte} {m : Mark} {s : State}

theorem State.frameCompletes_coasting (h : m.coasting = true ∨ s.link.mode = .off) : s.frameCompletes bytes m = s := if_pos h

/-- A mark without reception discards its frame (R4). -/
theorem State.frameCompletes_unmarked (h : m.mode = .off) : s.frameCompletes bytes m = s := by
  unfold State.frameCompletes
  split
  · rfl
  · simp [h]

theorem State.frameCompletes_open_or (mode : m.mode = .openMode) :
    s.frameCompletes bytes m = if m.coasting = true ∨ s.link.mode = .off then s else s.openFrame bytes m := by
  simp [State.frameCompletes, mode]

theorem State.frameCompletes_windowed_or {a : Nat} (mode : m.mode = .windowed) (agreed : m.agreed = some a)
    (elsewhere : slotOf a ≠ s.config.slot) : s.frameCompletes bytes m =
      if m.coasting = true ∨ s.link.mode = .off then s else s.windowedFrame (slotOf a) bytes m := by
  simp [State.frameCompletes, mode, agreed, elsewhere]

theorem State.openFrame_damaged (h : parseBeacon bytes = none) : s.openFrame bytes m = s := by
  simp only [State.openFrame, h]

theorem State.windowedFrame_damaged {slot : Fin 32} (h : parseBeacon bytes = none) : s.windowedFrame slot bytes m = s := by
  simp only [State.windowedFrame, h]

section
variable {b : Beacon} (parsed : parseBeacon bytes = some b)
include parsed

theorem State.windowedFrame_misplaced {slot : Fin 32} (h : b.slot ≠ slot) : s.windowedFrame slot bytes m = s := by
  simp only [State.windowedFrame, parsed, if_pos h]

theorem State.windowedFrame_clashing {slot : Fin 32} (placed : b.slot = slot) (clashes : s.clashes slot b = true) :
    s.windowedFrame slot bytes m = s.raise (.tagClash slot) := by
  simp only [State.windowedFrame, parsed, placed, clashes, ne_eq, not_true_eq_false, if_false, if_true]

theorem State.windowedFrame_unclashing {slot : Fin 32} (placed : b.slot = slot) (unclashing : s.clashes slot b = false) :
    s.windowedFrame slot bytes m = if s.link.arrivals[slot] then s else s.handOn m b := by
  simp [State.windowedFrame, parsed, placed, unclashing]

theorem State.openFrame_ownTag (h : b.tag = s.config.tag) : s.openFrame bytes m = s.raise (.tagClash b.slot) := by
  simp only [State.openFrame, parsed, if_pos h]

/-- A tag held elsewhere clashes in OPEN mode; another station's goes on to its entry (R12). -/
theorem State.openFrame_other (slot : b.slot ≠ s.config.slot) (tag : b.tag ≠ s.config.tag) : s.openFrame bytes m =
    if s.peers.heldElsewhere b.slot b.tag then s.raise (.tagClash b.slot) else s.handOn m b := by
  simp only [State.openFrame, parsed, if_neg tag, if_neg slot]

end

theorem State.clashes_iff {slot : Fin 32} {b : Beacon} : s.clashes slot b = true ↔
    b.tag = s.config.tag ∨ ∃ i : Fin 32, i ≠ slot ∧ (s.peers.entries[i]).tag = some b.tag := by
  rw [State.clashes, Bool.or_eq_true, beq_iff_eq, PeerTable.heldElsewhere_iff]

theorem PeerTable.not_heldElsewhere {t : PeerTable} {slot : Fin 32} {tag : Nat}
    (h : ∀ i : Fin 32, i ≠ slot → (t.entries[i]).tag ≠ some tag) : t.heldElsewhere slot tag = false :=
  Bool.eq_false_iff.mpr fun k =>
    let ⟨i, other, held⟩ := PeerTable.heldElsewhere_iff.mp k
    h i other held

theorem State.not_clashes {slot : Fin 32} {b : Beacon} (own : b.tag ≠ s.config.tag)
    (others : ∀ i : Fin 32, i ≠ slot → (s.peers.entries[i]).tag ≠ some b.tag) : s.clashes slot b = false :=
  Bool.eq_false_iff.mpr fun k => (State.clashes_iff.mp k).elim own fun ⟨i, other, held⟩ => others i other held

end

/-- Settles O20: the frame goes by its mark to the window of its slot or to the OPEN reception, and clashes there. -/
theorem clashingFramesRaise : Obligations.ClashingFramesRaise := by
  intro dt bytes since b s u m parsed coasting on
  have goes : exec (.frameReceived dt bytes since) s = .next (u.frameCompletes bytes m) := exec_frameReceived ..
  refine ⟨fun a mode agreed elsewhere placed clash => ?windowed, fun mode own => ?ownTag, fun mode slot held => ?held⟩
  case windowed =>
    rw [goes, State.frameCompletes_windowed coasting on mode agreed, if_neg elsewhere,
      State.windowedFrame_clashing parsed placed (State.clashes_iff.mpr (by rwa [← placed]))]
  case ownTag => rw [goes, State.frameCompletes_open coasting on mode, State.openFrame_ownTag parsed own]
  case held =>
    rw [goes, State.frameCompletes_open coasting on mode]
    by_cases own : b.tag = u.config.tag
    · rw [State.openFrame_ownTag parsed own]
    · rw [State.openFrame_other parsed slot own, if_pos (PeerTable.heldElsewhere_iff.mpr held)]

/-! ### The close of the own window (R18, R19) -/

theorem exec_ownWindowClose (dt : Elapsed) (s : State) : exec (.ownWindowClose dt) s = .next (s.elapse dt).windowIf := rfl

section
variable {s : State} {a : Nat} (reading : s.reading = some a) (mode : s.link.mode = .windowed)
include reading mode

/-- The window to be judged closes where the reading is not in it (R18; log 49). -/
theorem State.windowClosed_of_judged {n : Nat} (judged : s.link.toJudge = some n)
    (outside : roundOf a ≠ n ∨ slotOf a ≠ s.config.slot) : s.windowClosed = true := by
  simpa [State.windowClosed, reading, mode, judged, inWindowOf, ← imp_iff_not_or] using outside

theorem State.windowClosed_of_unjudged (unjudged : s.link.toJudge = none) (outside : slotOf a ≠ s.config.slot) :
    s.windowClosed = true := by
  simpa [State.windowClosed, reading, mode, unjudged] using outside

end

theorem ReadBack.verdict_collision {r : ReadBack} (h : r.clean = false ∨ r.other = true ∨ r.damaged = true) :
    r.verdict = .collision := by
  refine if_pos ?_
  rcases h with h | h | h <;> simp [h]

theorem State.closeWindow_of_judged {s : State} {n : Nat} (judged : s.link.toJudge = some n) : s.closeWindow =
    s.setLink { s.link with
      collisions := s.link.readBack.verdict.count s.link.collisions
      judged := some ⟨n, s.link.collisions, s.link.readBack⟩
      readBack := ReadBack.cleared, toJudge := none, buildOpen := false } := by
  simp [State.closeWindow, Link.verdict, judged]

theorem State.closeWindow_of_unjudged {s : State} (unjudged : s.link.toJudge = none) : s.closeWindow =
    s.setLink { s.link with readBack := ReadBack.cleared, toJudge := none, buildOpen := false } := by
  simp [State.closeWindow, Link.verdict, unjudged]

theorem State.endWindow_of_other {s : State} (h : s.link.verdict ≠ some .collision) : s.endWindow = s.closeWindow := if_neg h

theorem State.endWindow_of_collision {s : State} (h : s.link.verdict = some .collision) :
    s.endWindow = s.closeWindow.collided := if_pos h

theorem StationState.collides_iff (st : StationState) :
    st.collides = true ↔ st = .joining ∨ st = .agreed ∨ st = .isolated ∨ st = .withdrawing := by
  cases st <;> simp [StationState.collides]

/-- Below 3 collisions a joined station stays (R40). -/
theorem State.collided_of_few {s : State} (joined : s.station.state ≠ .founding) (few : s.link.collisions < 3) :
    s.collided = s := by
  rw [State.collided, if_neg joined, if_neg (by simp [few])]

/-- Settles O31: the judgement of the record, then the count. -/
theorem ownWindowJudged : Obligations.OwnWindowJudged := by
  intro dt s a u reading mode
  refine ⟨fun n judged outside => ⟨fun record => ?clean, fun record joined few => ?collision⟩, fun unjudged outside => ?none⟩
  case clean =>
    have closed : u.windowClosed = true := State.windowClosed_of_judged reading mode judged outside
    have verdict : u.link.verdict = some .clean := by rw [Link.verdict, judged, record]; rfl
    rw [exec_ownWindowClose, State.windowIf, if_pos closed, State.endWindow_of_other (by simp [u, verdict]),
      State.closeWindow_of_judged judged, show (s.elapse dt).link.readBack = _ from record]
    rfl
  case collision =>
    have closed : u.windowClosed = true := State.windowClosed_of_judged reading mode judged outside
    have collides : u.link.readBack.verdict = .collision := ReadBack.verdict_collision record
    have count : u.link.readBack.verdict.count u.link.collisions = u.link.collisions + 1 := by
      rw [collides]; exact min_eq_right (by omega)
    have close := State.closeWindow_of_judged judged
    rw [count] at close
    have stays : u.closeWindow.collided = u.closeWindow := by
      refine State.collided_of_few ?_ (by rw [close]; exact few)
      rw [close, State.setLink_station]
      rcases joined with h | h | h | h <;> rw [h] <;> decide
    rw [exec_ownWindowClose, State.windowIf, if_pos closed,
      State.endWindow_of_collision (by rw [Link.verdict, judged]; exact congrArg some collides), stays, close]
    rfl
  case none =>
    have closed : u.windowClosed = true := State.windowClosed_of_unjudged reading mode unjudged outside
    have verdict : u.link.verdict = none := by rw [Link.verdict, unjudged]; rfl
    rw [exec_ownWindowClose, State.windowIf, if_pos closed, State.endWindow_of_other (by simp [u, verdict]),
      State.closeWindow_of_unjudged unjudged]
    rfl

/-! ### What is remembered of timing marks (R4; log 4) -/

/-- Nothing is remembered from before the instant `x` of synthesizer time. -/
def Link.RemembersFrom (l : Link) (x : Nat) : Prop := ∀ r ∈ l.trail, x ≤ r.start

theorem Link.RemembersFrom.of_trail {l k : Link} {x : Nat} (h : l.RemembersFrom x) (trail : k.trail = l.trail) :
    k.RemembersFrom x := by rw [Link.RemembersFrom, trail]; exact h

theorem Link.remembersFrom_of_nil {l : Link} {x : Nat} (h : l.trail = []) : l.RemembersFrom x := by
  simp [Link.RemembersFrom, h]

/-- A station remembers nothing from before `x`, an instant that has gone by. -/
def State.RemembersFrom (s : State) (x : Nat) : Prop := s.link.RemembersFrom x ∧ x ≤ s.synthTime

theorem State.elapse_synthTime (dt : Elapsed) (s : State) : (s.elapse dt).synthTime = s.synthTime + s.synthAdvance dt := by
  simp [State.elapse]

theorem State.elapse_trail (dt : Elapsed) (s : State) : (s.elapse dt).link.trail = s.trailAfter dt := rfl

/-- The stretch of the elapsed time is remembered from the instant at which it begins. -/
theorem State.RemembersFrom.elapse {s : State} {x : Nat} (h : s.RemembersFrom x) (dt : Elapsed) :
    (s.elapse dt).RemembersFrom x := by
  obtain ⟨marks, past⟩ := h
  refine ⟨?_, by rw [State.elapse_synthTime]; omega⟩
  intro r mem
  rw [State.elapse_trail, State.trailAfter] at mem
  split at mem
  · exact marks r mem
  · rcases List.mem_cons.mp mem with rfl | mem
    · exact past
    · exact marks r (List.mem_of_mem_filter mem)

theorem State.RemembersFrom.of {s t : State} {x : Nat} (h : s.RemembersFrom x) (trail : t.link.trail = s.link.trail)
    (time : t.synthTime = s.synthTime) : t.RemembersFrom x := ⟨h.1.of_trail trail, time ▸ h.2⟩

/-- A mark from before all that is remembered came without reception. -/
theorem State.RemembersFrom.markAt {s : State} {x since : Nat} (h : s.RemembersFrom x) (early : s.synthTime < x + 2 * since) :
    (s.markAt since).mode = .off := by
  obtain ⟨marks, past⟩ := h
  have nonzero : since ≠ 0 := by omega
  have forgotten : (s.link.trail.find? fun r => decide ((r.start : Int) ≤ (s.synthTime : Int) - 2 * since)) = none := by
    rw [List.find?_eq_none]
    intro r mem
    have := marks r mem
    simp only [decide_eq_true_eq, not_le]
    omega
  unfold State.markAt
  simp only [if_neg nonzero, forgotten]

theorem State.invalidateClock_trail (s : State) : s.invalidateClock.link.trail = s.link.trail := by
  simp [State.invalidateClock]

theorem State.abandonLock_trail (s : State) : s.abandonLock.link.trail = s.link.trail := by
  unfold State.abandonLock State.loseClock
  split
  · split <;> simp [State.stopSynth, State.endRuns, State.invalidateClock_trail]
  · simp [State.stopSynth]

/-- Where reception is turned OFF, no timing mark is remembered (R4). -/
theorem State.move_trail_of_off {st : StationState} (off : st.mode = .off) (c : Cause) (s : State) :
    (s.move st c).link.trail = [] := by
  simp [State.move, State.enterMode, off]

theorem State.move_trail_of_on {st : StationState} (on : st.mode ≠ .off) (c : Cause) (s : State) :
    (s.move st c).link.trail = s.link.trail := by
  simp only [State.move]
  cases mode : st.mode
  · exact absurd mode on
  all_goals simp [State.enterMode]

theorem State.enterStandby_trail (c : Cause) (s : State) : (s.enterStandby c).link.trail = [] := by
  rw [State.enterStandby_eq, State.standbyRule_link]
  unfold State.beforeStandbyRule
  split <;> simp [State.abandonLock_trail, State.move_trail_of_off (st := .standby) rfl]

theorem State.enterStalled_trail (s : State) : s.enterStalled.link.trail = [] := by
  simp [State.enterStalled, State.invalidateClock_trail, State.stopSynth, State.stallLink, State.enterMode]

theorem State.enterListen_trail (c : Cause) (s : State) : (s.enterListen c).link.trail = s.link.trail := by
  simp [State.enterListen, State.move_trail_of_on (st := .listen) (by decide)]

/-- JOIN remembers no more than the station did. -/
theorem State.RemembersFrom.takeJoin {s : State} {x : Nat} (h : s.RemembersFrom x) : s.takeJoin.RemembersFrom x := by
  obtain ⟨marks, past⟩ := h
  refine ⟨?_, by unfold State.takeJoin; dsimp only; split <;> simpa using past⟩
  by_cases locked : s.source.synth = .locked
  · rw [State.takeJoin_of_locked locked]
    exact marks.of_trail ((State.enterListen_trail ..).trans (by simp))
  rw [State.takeJoin_of_unlocked locked]
  cases lost : s.loadHoldover.source.lost with
  | false =>
    rw [State.enterStarting_of_sound lost]
    exact Link.remembersFrom_of_nil (by simp [State.starts, State.move_trail_of_off (st := .starting) rfl])
  | true =>
    rw [State.enterStarting_of_lost lost]
    exact Link.remembersFrom_of_nil (State.enterStalled_trail _)

theorem State.RemembersFrom.request {s : State} {x : Nat} (h : s.RemembersFrom x) (dt : Elapsed) :
    (s.request dt).RemembersFrom x := by
  have ended : s.endTransaction.RemembersFrom x := by
    unfold State.endTransaction
    split
    · rw [State.stationReset_frame]
      exact ⟨Link.remembersFrom_of_nil rfl, h.2⟩
    · exact h
  exact (ended.elapse dt).of rfl rfl

theorem State.RemembersFrom.join {s t : State} {x : Nat} (h : s.RemembersFrom x) {dt : Elapsed}
    (joins : exec (.join dt []) s = .next t) : t.RemembersFrom x := by
  have asked := h.request dt
  cases checks : (s.request dt).refuseJoin [] with
  | none =>
    rw [exec_join, checks, State.serve_noData] at joins
    cases joins
    exact asked.takeJoin.of rfl rfl
  | some st =>
    rw [exec_join_refused checks] at joins
    cases joins
    exact asked.of rfl rfl

/-- Settles O18: the first part by the way of a frame; the second because a WITHDRAW in LISTEN leaves nothing remembered. -/
theorem discardedFramesChangeNothing : Obligations.DiscardedFramesChangeNothing := by
  refine ⟨?single, ?reopened⟩
  case single =>
    intro dt bytes since s u m
    have goes : exec (.frameReceived dt bytes since) s = .next (u.frameCompletes bytes m) := exec_frameReceived ..
    refine ⟨fun unheard => ?unheard, fun mode damaged => ?damaged, fun a mode agreed elsewhere => ?windowed⟩
    case unheard => rw [goes, State.frameCompletes_coasting unheard]
    case damaged => rw [goes, State.frameCompletes_open_or mode, State.openFrame_damaged damaged, ite_self]
    case windowed =>
      rw [goes, State.frameCompletes_windowed_or mode agreed elsewhere]
      refine ⟨fun damaged => ?_, fun b parsed misplaced => ?_, fun b parsed placed own others second => ?_⟩
      · rw [State.windowedFrame_damaged damaged, ite_self]
      · rw [State.windowedFrame_misplaced parsed misplaced, ite_self]
      · rw [State.windowedFrame_unclashing parsed placed (State.not_clashes own others), if_pos second, ite_self]
  case reopened =>
    intro dw dj dt bytes since s t v listening withdraws joins early
    have standby : t.link.trail = [] := by
      rw [exec_withdraw_taken (by rw [listening]; rfl)] at withdraws
      cases withdraws
      rw [State.takeWithdraw_of_silent (.inr (.inl listening))]
      exact State.enterStandby_trail ..
    have forgotten : t.RemembersFrom t.synthTime := ⟨Link.remembersFrom_of_nil standby, le_rfl⟩
    have mark : ((v.elapse dt).markAt since).mode = .off := ((forgotten.join joins).elapse dt).markAt early
    rw [exec_frameReceived, State.frameCompletes_unmarked mark]

/-! ### Handed to the entry (R9, R11, R12, R47) -/

/-- Notices raised change the notices alone. -/
theorem State.raiseAll_frame (ns : List Notice) (s : State) : s.raiseAll ns = s.setNotices (s.raiseAll ns).notices := by
  induction ns generalizing s with
  | nil => rfl
  | cons n ns ih =>
    rw [raiseAll_cons]
    exact ih (s.raise n)

section
variable (s : State) (slot : Fin 32) (lag : Option Int) (b : Beacon)

theorem State.handToPeer_peers : (s.handToPeer slot lag b).peers = { s.peers with
    entries := put s.peers.entries slot
      ((s.peers.entries[slot]).handOff s.config.slot s.config.window s.peers.hold lag b) } := by
  simp [State.handToPeer]

/-- A hand-off changes the table and the notices. -/
theorem State.handToPeer_frame : s.handToPeer slot lag b =
    (s.setPeers (s.handToPeer slot lag b).peers).setNotices (s.handToPeer slot lag b).notices := by
  rw [State.handToPeer_peers]
  exact State.raiseAll_frame ..

end

/-- A good beacon that moves the station nowhere (R11, R28, R31). -/
theorem State.handOn_of_stays {m : Mark} {b : Beacon} {s : State} (stays : s.integrates b = none) :
    s.handOn m b = (s.noteArrival b.slot).handToPeer b.slot (s.rawLag m b) b := by
  simp only [State.handOn, stays]

theorem State.integrates_eq_none_of {b : Beacon} {s : State}
    (h : s.station.state = .joining ∨ s.station.state = .agreed ∨ s.station.state = .isolated ∨
      s.station.state = .withdrawing ∨
      (s.station.state = .founding ∧ (b.state = .joining ∨ b.state = .isolated ∨ b.state = .withdrawing ∨
        (b.state = .founding ∧ s.config.slot ≤ b.slot))) ∨
      (s.station.state = .listen ∧ (b.state = .joining ∨ b.state = .withdrawing))) : s.integrates b = none := by
  unfold State.integrates
  rcases h with h | h | h | h | ⟨h, k | k | k | ⟨k, slots⟩⟩ | ⟨h, k | k⟩
  all_goals simp_all

theorem State.rawLag_eq (m : Mark) (b : Beacon) (s : State) : s.rawLag m b = m.agreed.map fun a : Nat =>
    (a : Int) + s.stepsSince m.since - (b.round * 8000000 + b.slot.val * 250000 + 20000) := by
  simp [State.rawLag, intendedDeparture, roundNs, slotNs, departureNs]

/-- Settles O21: in its window or openly the frame reaches its entry, with the raw lag of R5. -/
theorem goodBeaconHandedOn : Obligations.GoodBeaconHandedOn := by
  intro dt bytes since b s u m lag parsed coasting on own slot others way stays
  have reaches : u.frameCompletes bytes m = u.handOn m b := by
    rcases way with mode | ⟨mode, window, first⟩
    · rw [State.frameCompletes_open coasting on mode, State.openFrame_other parsed slot own,
        if_neg (by rw [PeerTable.not_heldElsewhere others]; exact Bool.false_ne_true)]
    · obtain ⟨a, agreed, placed⟩ := Option.map_eq_some_iff.mp window
      rw [State.frameCompletes_windowed coasting on mode agreed, if_neg (by rwa [placed]), placed,
        State.windowedFrame_unclashing parsed rfl (State.not_clashes own others), if_neg (by rw [first]; exact Bool.false_ne_true)]
  have handed : exec (.frameReceived dt bytes since) s = .next ((u.noteArrival b.slot).handToPeer b.slot lag b) := by
    rw [exec_frameReceived, show (s.elapse dt).frameCompletes _ _ = _ from reaches,
      State.handOn_of_stays (State.integrates_eq_none_of stays), State.rawLag_eq, State.markAt_since]
  have peers := State.handToPeer_peers (u.noteArrival b.slot) b.slot lag b
  refine ⟨_, handed, ?entry, fun i other => ?entries, ?hold, ?arrival, fun i other => ?arrivals, ?frame⟩
  case entry => simp only [peers]; exact (put_get ..).trans (if_pos rfl)
  case entries => simp only [peers]; exact (put_get ..).trans (if_neg other.symm)
  case hold => rw [peers]; rfl
  case arrival => simp only [State.handToPeer_link]; exact (put_get ..).trans (if_pos rfl)
  case arrivals => simp only [State.handToPeer_link]; exact (put_get ..).trans (if_neg other.symm)
  case frame =>
    rw [State.handToPeer_link]
    exact State.handToPeer_frame ..

end Sys2Proof.Machine
end

section
/-! PROOFS. The own beacon: built, sent, and reported (R6, R7, R13, R15 to R17, R39), and what a collision of the own window
does, at its close or with a frame that ends after it (R18, R19, R32, R40). -/

namespace Sys2Proof.Machine

/-! ### BEACON_BUILD (R6, R7, R15) -/

theorem exec_beaconBuild (dt : Elapsed) (s : State) : exec (.beaconBuild dt) s = .next (s.elapse dt).buildIf := rfl

theorem inBuildSpan_iff (slot : Fin 32) (a : Nat) : inBuildSpan slot a = true ↔
    slot.val * 250000 ≤ a % 8000000 ∧ a % 8000000 < slot.val * 250000 + 19520 := by
  simp [inBuildSpan, slotNs, roundNs, frameStartNs]

section
variable {s : State} {a : Nat}

theorem State.buildDue_eq_some {st : PeerState} (reading : s.reading = some a) (state : s.station.state.beaconState = some st)
    (occasion : s.link.buildOpen = true) (running : s.source.coasting = false) (span : inBuildSpan s.config.slot a = true)
    (unbuilt : s.link.built = none) (free : s.link.transmitter = none) (unsent : roundOf a ∉ s.link.departed) :
    s.buildDue = some (st, roundOf a) := by
  simp [State.buildDue, reading, state, occasion, running, span, unbuilt, free, unsent]

theorem State.buildDue_unread (h : s.reading = none) : s.buildDue = none := by
  simp [State.buildDue, h]

theorem State.buildDue_silent (h : s.station.state.transmits = false) : s.buildDue = none := by
  have unstated : s.station.state.beaconState = none := by cases k : s.station.state <;> simp_all [StationState.transmits, StationState.beaconState]
  simp [State.buildDue, unstated]

theorem State.buildDue_stopped (h : s.link.buildOpen = false ∨ s.source.coasting = true ∨ s.link.built.isSome = true ∨
    s.link.transmitter.isSome = true) : s.buildDue = none := by
  unfold State.buildDue
  split
  · refine if_neg ?_
    rcases h with h | h | h | h <;> simp [h, Option.isNone_eq_false_iff.mpr]
  · rfl

theorem State.buildDue_mistimed (reading : s.reading = some a)
    (h : roundOf a ∈ s.link.departed ∨ inBuildSpan s.config.slot a = false) : s.buildDue = none := by
  unfold State.buildDue
  rw [reading]
  split
  next read _ =>
    cases read
    refine if_neg ?_
    rcases h with h | h <;> simp [h]
  next => rfl

theorem State.buildIf_of_due {st : PeerState} {n : Nat} (h : s.buildDue = some (st, n)) : s.buildIf = s.build st n := by
  simp only [State.buildIf, h]

theorem State.buildIf_of_none (h : s.buildDue = none) : s.buildIf = s := by
  simp only [State.buildIf, h]

/-- The anchor offset is carried where it is valid, enabled and fits (R7). -/
theorem State.beaconAnchor_eq_some_iff (x : Int) : s.beaconAnchor = some x ↔ s.config.anchorEnabled = true ∧
    s.anchor.valid = true ∧ s.anchor.offset = some x ∧ -2147483648 ≤ x ∧ x ≤ 2147483647 := by
  unfold State.beaconAnchor
  cases held : s.anchor.offset with
  | none => simp
  | some y =>
    simp only [Option.ite_none_right_eq_some, Bool.and_eq_true, echoFits_iff, Option.some.injEq]
    constructor
    · rintro ⟨⟨⟨enabled, valid⟩, fits⟩, rfl⟩
      exact ⟨enabled, valid, rfl, fits⟩
    · rintro ⟨enabled, valid, rfl, fits⟩
      exact ⟨⟨⟨enabled, valid⟩, fits⟩, rfl⟩

/-- The label notice carried is the change this station originates (R7). -/
theorem State.beaconNotice_eq_some_iff (n : LabelNotice) :
    s.beaconNotice = some n ↔ s.anchor.change = some ⟨n.offset, n.second, .originated⟩ := by
  unfold State.beaconNotice
  split
  next offset second held =>
    simp only [Option.some.injEq, held]
    cases n
    simp
  next other =>
    simp only [reduceCtorEq, false_iff]
    exact fun held => other _ _ held

end

/-! ### The occasion to build at an entry (R15; log 41) -/

/-- In the span before the frame start an occasion opens for a transmitting station that does not coast. -/
theorem State.openOccasion_opens {s : State} {a : Nat} (transmits : s.station.state.transmits = true)
    (reading : s.reading = some a) (running : s.source.coasting = false) (span : inBuildSpan s.config.slot a = true) :
    s.openOccasion.link.buildOpen = true := by
  simp [State.openOccasion, reading, transmits, running, span]

/-- An entry that transmits and keeps the clock, the source unit and the record opens the occasion where the station stood in
the span. -/
theorem State.openOccasion_opens_of {s t : State} {a : Nat} (reading : s.reading = some a) (running : s.source.coasting = false)
    (span : inBuildSpan s.config.slot a = true) (transmits : t.station.state.transmits = true)
    (clock : t.discipline.clock = s.discipline.clock) (source : t.source = s.source) (port : t.port = s.port) :
    t.openOccasion.link.buildOpen = true :=
  State.openOccasion_opens transmits (by rwa [State.reading, clock]) (by rwa [source]) (by rwa [State.config, port])

/-- Settles O28. -/
theorem beaconBuilt : Obligations.BeaconBuilt := by
  refine ⟨?built, ?idle, ?entered⟩
  case built =>
    intro dt s a st u reading state occasion running low high unbuilt free unsent
    have due : u.buildDue = some (st, a / 8000000) := State.buildDue_eq_some reading state occasion running
      ((inBuildSpan_iff _ _).mpr ⟨low, high⟩) unbuilt free unsent
    refine ⟨u.build st (a / 8000000), u.beacon st (a / 8000000), ?_, rfl, rfl, rfl, rfl, rfl, rfl, rfl,
      State.beaconAnchor_eq_some_iff, State.beaconNotice_eq_some_iff, rfl, rfl, rfl⟩
    rw [exec_beaconBuild, State.buildIf_of_due due]
  case idle =>
    intro dt s u idle
    rw [exec_beaconBuild, State.buildIf_of_none]
    rcases idle with unread | silent | idle | idle | idle | idle | ⟨a, reading, sent | outside⟩
    · exact State.buildDue_unread unread
    · exact State.buildDue_silent silent
    · exact State.buildDue_stopped (.inl idle)
    · exact State.buildDue_stopped (.inr (.inl idle))
    · exact State.buildDue_stopped (.inr (.inr (.inl idle)))
    · exact State.buildDue_stopped (.inr (.inr (.inr idle)))
    · exact State.buildDue_mistimed reading (.inl sent)
    · exact State.buildDue_mistimed reading (.inr (Bool.eq_false_iff.mpr fun h => outside ((inBuildSpan_iff _ _).mp h)))
  case entered =>
    intro s t cause a reading running low high entered
    have span := (inBuildSpan_iff s.config.slot a).mpr ⟨low, high⟩
    simp only [List.mem_cons, List.not_mem_nil, or_false] at entered
    rcases entered with rfl | rfl | rfl | rfl | rfl
    all_goals
      refine State.openOccasion_opens_of reading running span ?_ ?_ ?_ ?_
      all_goals simp [State.clearCounts, StationState.transmits]

end Sys2Proof.Machine
end

section
/-! PROOFS. The own beacon sent and reported (R16, R17, R39), and what a collision of the own window does, at its close or
with a frame that ends after it (R18, R19, R32, R40). -/

namespace Sys2Proof.Machine

/-! ### FRAME_START (R16) -/

theorem exec_frameStart (dt : Elapsed) (s : State) : exec (.frameStart dt) s = .next (s.elapse dt).frameIf := rfl

theorem State.frameIf_of_due {s : State} {b : BuiltBeacon} {a : Nat} (reading : s.reading = some a)
    (built : s.link.built = some b) (waits : b.begun = false) (free : s.link.transmitter = none)
    (transmits : s.station.state.transmits = true) (running : s.source.coasting = false)
    (reached : frameStartOf b.round b.beacon.slot ≤ a) : s.frameIf = s.beginFrame b := by
  have due : s.frameDue = some b := by simp [State.frameDue, reading, built, waits, free, transmits, running, reached]
  simp only [State.frameIf, due]

theorem frameHalfNs_frame (b : Beacon) : frameHalfNs b.frame = 2 * (480 + 160 * b.bytes.length) := by
  simp [frameHalfNs, Beacon.frame]
  omega

/-! ### BEACON_DEPARTURE and WITHDRAWN (R16, R17, R39) -/

theorem exec_beaconDeparture (dt : Elapsed) (s : State) : exec (.beaconDeparture dt) s = .next (s.elapse dt).departIf := rfl

theorem exec_withdrawn (dt : Elapsed) (s : State) : exec (.withdrawn dt) s =
    .next (if (s.elapse dt).withdrawalEnds then (s.elapse dt).departIf else s.elapse dt) := rfl

section
variable {s : State} {x : Transmission} (sending : s.link.transmitter = some x)
include sending

theorem State.frameEnded_of_done (done : x.doneAt ≤ s.synthTime) : s.frameEnded = some x := by
  simp [State.frameEnded, sending, done]

theorem State.frameEnded_of_sending (unfinished : s.synthTime < x.doneAt) : s.frameEnded = none := by
  simp [State.frameEnded, sending, unfinished]

end

theorem Link.departing_of_begun {l : Link} {b : BuiltBeacon} (built : l.built = some b) (begun : b.begun = true) :
    l.departing = some b := by
  simp [Link.departing, built, begun]

theorem Link.departing_of_abandoned {l : Link} (h : l.built = none ∨ ∃ b, l.built = some b ∧ b.begun = false) :
    l.departing = none := by
  rcases h with h | ⟨b, h, waits⟩
  · simp [Link.departing, h]
  · simp [Link.departing, h, waits]

section
variable {s : State} {x : Transmission}

theorem State.departIf_of_none (h : s.frameEnded = none) : s.departIf = s := by
  simp only [State.departIf, h]

theorem State.withdrawalEnds_of_none (h : s.frameEnded = none) : s.withdrawalEnds = false := by
  simp [State.withdrawalEnds, h]

theorem State.withdrawalEnds_of_abandoned (h : s.link.departing = none) : s.withdrawalEnds = false := by
  simp [State.withdrawalEnds, h]

theorem State.departIf_of_abandoned (ended : s.frameEnded = some x) (abandoned : s.link.departing = none) :
    s.departIf = s.setLink { s.link with transmitter := none, departed := x.round :: s.link.departed } := by
  simp [State.departIf, ended, abandoned, State.releaseFrame]

theorem State.departIf_of_departing {b : BuiltBeacon} (ended : s.frameEnded = some x) (departs : s.link.departing = some b) :
    s.departIf = (s.releaseFrame x).countDeparture b.beacon.state := by
  simp [State.departIf, ended, departs]

theorem State.releaseFrame_of_departing {b : BuiltBeacon} (departs : s.link.departing = some b) : s.releaseFrame x =
    s.setLink { s.link with
      transmitter := none, departed := x.round :: s.link.departed, built := none, toJudge := some x.round } := by
  simp [State.releaseFrame, departs]

theorem State.countDeparture_of_other {st : PeerState} (h : s.station.state ≠ .withdrawing ∨ st ≠ .withdrawing) :
    s.countDeparture st = s := if_neg (by tauto)

theorem State.countDeparture_first (withdrawing : s.station.state = .withdrawing) (none : s.station.withdrawCount = 0) :
    s.countDeparture .withdrawing = s.setStation { s.station with withdrawCount := 1 } := by
  simp [State.countDeparture, withdrawing, none]

theorem State.countDeparture_second (withdrawing : s.station.state = .withdrawing) (one : s.station.withdrawCount = 1) :
    s.countDeparture .withdrawing = (s.setStation { s.station with withdrawCount := 2 }).enterStandby .withdrawn := by
  simp [State.countDeparture, withdrawing, one]

end

/-! ### Entries into LISTEN and STANDBY at the Link Unit (R17, R19) -/

/-- A station that transmits gives up no lock on entry into STANDBY. -/
theorem State.abandonsLock_of_transmits {s : State} {c : Cause} (transmits : s.station.state.transmits = true) :
    s.abandonsLock c = false := by
  cases h : s.station.state <;> simp_all [State.abandonsLock, StationState.transmits]

section
variable (c : Cause) (s : State)

/-- What leaves transmission ends of the beacon at the Link Unit, and what it leaves (R17). -/
structure Link.BeaconAbandoned (l k : Link) : Prop where
  built : k.built = none
  toJudge : k.toJudge = none
  transmitter : k.transmitter = l.transmitter
  departed : k.departed = l.departed
  collisions : k.collisions = l.collisions

theorem State.move_abandons {st : StationState} (silent : st.transmits = false) :
    s.link.BeaconAbandoned (s.move st c).link := by
  have mode : st.mode ≠ .windowed := by cases st <;> simp_all [StationState.mode, StationState.transmits]
  simp only [State.move]
  cases h : st.mode with
  | windowed => exact absurd h mode
  | off | openMode => constructor <;> simp [State.enterMode, silent]

theorem Link.BeaconAbandoned.of {l k m : Link} (h : l.BeaconAbandoned k) (built : m.built = k.built)
    (toJudge : m.toJudge = k.toJudge) (transmitter : m.transmitter = k.transmitter) (departed : m.departed = k.departed)
    (collisions : m.collisions = k.collisions) : l.BeaconAbandoned m :=
  ⟨built.trans h.built, toJudge.trans h.toJudge, transmitter.trans h.transmitter, departed.trans h.departed,
    collisions.trans h.collisions⟩

theorem State.enterListen_abandons : s.link.BeaconAbandoned (s.enterListen c).link :=
  (State.move_abandons c s (st := .listen) rfl).of rfl rfl rfl rfl rfl

/-- The loss of the clock keeps the Link Unit but for what belongs to the clock. -/
theorem State.loseClock_link : s.loseClock.link = { s.link with
    lastRoundEnd := s.loseClock.link.lastRoundEnd, followed := s.loseClock.link.followed
    owedRoundEnd := s.loseClock.link.owedRoundEnd, recentSteps := s.loseClock.link.recentSteps
    furthest := s.loseClock.link.furthest } := by
  unfold State.loseClock
  split
  · simp [State.endRuns, State.invalidateClock]
  · rfl

theorem State.enterStandby_abandons : s.link.BeaconAbandoned (s.enterStandby c).link := by
  have moved := State.move_abandons c s (st := .standby) rfl
  rw [State.enterStandby_eq, State.standbyRule_link]
  unfold State.beforeStandbyRule State.abandonLock
  split
  · split
    · rw [State.loseClock_link]
      exact moved.of rfl rfl rfl rfl rfl
    · exact moved.of rfl rfl rfl rfl rfl
  · exact moved.of rfl rfl rfl rfl rfl

end

/-- Settles O30: the instants of the frame, then the departure by the beacon it reports. -/
theorem beaconSentAndReported : Obligations.BeaconSentAndReported := by
  intro dt s u
  refine ⟨?begins, ?reported, ?abandoned, ?sending, ?entries⟩
  case begins =>
    intro a b reading built waits free transmits running reached
    have starts : frameStartOf b.round b.beacon.slot ≤ a := by
      simp only [frameStartOf, roundNs, slotNs, frameStartNs]
      omega
    rw [exec_frameStart, show (s.elapse dt).frameIf = _ from
      State.frameIf_of_due reading built waits free transmits running starts, State.beginFrame, frameHalfNs_frame]
    rfl
  case reported =>
    intro x b sending done built begun
    have departing := Link.departing_of_begun built begun
    have departs : u.departIf = (u.releaseFrame x).countDeparture b.beacon.state :=
      State.departIf_of_departing (State.frameEnded_of_done sending done) departing
    have free : (u.releaseFrame x).link.transmitter = none := by simp [State.releaseFrame]
    refine ⟨fun other => ?counted, fun withdrawing state none => ?first, fun withdrawing state one => ?second⟩
    case counted =>
      rw [State.countDeparture_of_other (by rwa [State.releaseFrame_station]), State.releaseFrame_of_departing departing] at departs
      exact congrArg Host.Outcome.next departs
    case first =>
      rw [state, State.countDeparture_first (by rwa [State.releaseFrame_station]) (by rwa [State.releaseFrame_station]),
        State.releaseFrame_station] at departs
      exact ⟨_, congrArg Host.Outcome.next departs, rfl, free⟩
    case second =>
      have ends : u.withdrawalEnds = true := by
        simp [State.withdrawalEnds, State.frameEnded_of_done sending done, withdrawing, one, departing, state]
      rw [state, State.countDeparture_second (by rwa [State.releaseFrame_station]) (by rwa [State.releaseFrame_station])]
        at departs
      obtain ⟨v, station, link, rest⟩ : ∃ v, v.station = { u.station with withdrawCount := 2 } ∧
          v.link = (u.releaseFrame x).link ∧ v = ((u.setLink v.link).setStation v.station) ∧
            u.departIf = v.enterStandby .withdrawn :=
        ⟨_, by rw [State.setStation_station, State.releaseFrame_station], rfl, rfl, departs⟩
      obtain ⟨frame, departs⟩ := rest
      have keeps : v.abandonsLock .withdrawn = false :=
        State.abandonsLock_of_transmits (by rw [station]; exact congrArg StationState.transmits withdrawing)
      have left := (v.enterStandby_station .withdrawn).trans (State.move_station ..)
      refine ⟨v.enterStandby .withdrawn, ?_, congrArg Host.Outcome.next departs, by rw [left], by rw [left]; rfl, ?_,
        v.enterStandby_mode _, ?_, ?_, ?_, ?_, ?_⟩
      · rw [exec_withdrawn, if_pos ends]
        exact congrArg Host.Outcome.next departs
      · exact (v.enterStandby_reports .withdrawn).before (by rw [frame]; rfl)
      · rw [(State.enterStandby_abandons ..).transmitter, link, free]
      · rw [State.enterStandby_discipline_of_keeps keeps, frame]; rfl
      · rw [State.enterStandby_peers, frame]; rfl
      · rw [State.enterStandby_agreement, frame]; rfl
      · rw [State.enterStandby_anchor_of_keeps keeps, frame]; rfl
  case abandoned =>
    intro x sending done abandoned
    have ended := State.frameEnded_of_done sending done
    have departing := Link.departing_of_abandoned abandoned
    refine ⟨?_, ?_⟩
    · rw [exec_beaconDeparture, show (s.elapse dt).departIf = _ from State.departIf_of_abandoned ended departing]
    · rw [exec_withdrawn, if_neg (by rw [State.withdrawalEnds_of_abandoned departing]; exact Bool.false_ne_true)]
  case sending =>
    intro x sending unfinished
    have unended := State.frameEnded_of_sending sending unfinished
    refine ⟨?_, ?_⟩
    · rw [exec_beaconDeparture, State.departIf_of_none unended]
    · rw [exec_withdrawn, if_neg (by rw [State.withdrawalEnds_of_none unended]; exact Bool.false_ne_true)]
  case entries =>
    intro cause t entered
    have abandons : u.link.BeaconAbandoned t.link := by
      simp only [List.mem_cons, List.not_mem_nil, or_false] at entered
      rcases entered with rfl | rfl
      · exact State.enterListen_abandons ..
      · exact State.enterStandby_abandons ..
    exact ⟨abandons.built, abandons.toJudge, abandons.transmitter, abandons.departed, abandons.collisions⟩

end Sys2Proof.Machine
end

section
/-! PROOFS. What a collision of the own window does, at its close or with a frame that ends after it (R18, R19, R32, R40). -/

namespace Sys2Proof.Machine

/-! ### A collision reported (R32, R40) -/

theorem State.collided_of_founding {s : State} (founding : s.station.state = .founding) :
    s.collided = (s.setStation { s.station with extraListen := 32 }).enterListen .collision := if_pos founding

theorem State.collided_of_third {s : State} (collides : s.station.state.collides = true) (third : 3 ≤ s.link.collisions) :
    s.collided = (s.enterStandby .collision).raise (.slotConflict s.config.slot none) := by
  have joined : s.station.state ≠ .founding := fun h => by rw [h] at collides; exact Bool.false_ne_true collides
  rw [State.collided, if_neg joined, if_pos (by simp [collides, third])]

theorem StationState.transmits_of_collides {st : StationState} (h : st.collides = true) : st.transmits = true := by
  cases st <;> simp_all [StationState.collides, StationState.transmits]

/-- A round end that is due stays due on entry into LISTEN from a state that closes rounds on a valid clock (R3). -/
theorem State.enterListen_roundEndDue {s : State} {c : Cause} {a : Nat} (closes : s.station.state.closesRounds = true)
    (reading : s.reading = some a) : (s.enterListen c).roundEndDue = s.roundEndDue := by
  have round : s.round = some (roundOf a) := by rw [State.round, reading]; rfl
  have same : (s.enterListen c).round = s.round := by simp [State.round, State.reading]
  have listens : (s.enterListen c).station.state.closesRounds = true := by rw [State.enterListen_station]; rfl
  have reaches : (s.enterListen c).link.reaches (roundOf a) = s.link.reaches (roundOf a) := by
    simp [State.enterListen, Link.reaches, closes, State.move, State.enterMode, StationState.mode]
  have later : (s.enterListen c).link.startsLater (roundOf a) = s.link.startsLater (roundOf a) := by
    simp [State.enterListen, Link.startsLater, State.move, State.enterMode, StationState.mode]
  unfold State.roundEndDue
  rw [if_pos listens, if_pos closes, same, round]
  simp only [reaches, later]

/-- The first collision of a founder (R32). -/
theorem State.collided_founding_moves {s : State} (founding : s.station.state = .founding) : let t := s.collided
    t.station.state = .listen ∧ Reports s t (.stateChanged .listen .collision) ∧
      t.station.listenTimer = some (36 + s.config.slot.val) ∧ t.station.extraListen = 0 ∧ t.link.mode = .openMode := by
  simp only [State.collided_of_founding founding, State.enterListen_station]
  refine ⟨trivial, (State.enterListen_reports .collision _).before rfl, congrArg some ?_, trivial, State.enterListen_mode ..⟩
  simp only [State.config, State.setStation_port, State.setStation_station]
  omega

theorem State.enterStandby_enables_of_keeps {s : State} {c : Cause} (keeps : s.abandonsLock c = false) :
    (s.enterStandby c).notices.enables = s.notices.enables := by
  rw [State.enterStandby_notices_of_keeps keeps, raise_enables]

/-- The third collision of a joined station (R40). -/
theorem State.collided_third_moves {s : State} (collides : s.station.state.collides = true) (third : s.link.collisions = 3) :
    let t := s.collided
    t.station.state = .standby ∧ t.station.faultReason = .cause .collision ∧
      Reports s t (.stateChanged .standby .collision) ∧ Reports s t (.slotConflict s.config.slot none) ∧
      t.link.mode = .off ∧ t.link.collisions = 3 ∧ t.discipline = s.discipline ∧ t.peers = s.peers ∧
      t.agreement = s.agreement ∧ t.anchor = s.anchor := by
  have keeps : s.abandonsLock .collision = false :=
    State.abandonsLock_of_transmits (StationState.transmits_of_collides collides)
  have station := (s.enterStandby_station .collision).trans (State.move_station ..)
  simp only [State.collided_of_third collides third.ge, State.raise_station, State.raise_link, State.raise_discipline,
    State.raise_peers, State.raise_agreement, State.raise_anchor, station]
  exact ⟨trivial, rfl,
    (s.enterStandby_reports .collision).after (raise_record_other _ _ _ (show (1 : Fin 27) ≠ 5 by decide)),
    (Reports.raise _ _).before (State.enterStandby_enables_of_keeps keeps), s.enterStandby_mode _,
    (State.enterStandby_abandons ..).collisions.trans third, State.enterStandby_discipline_of_keeps keeps, by simp, by simp,
    State.enterStandby_anchor_of_keeps keeps⟩

/-! ### At the close of the window (R32, R40) -/

theorem exec_collision (dt : Elapsed) (s : State) : exec (.collision dt) s =
    .next (if (s.elapse dt).thirdCollision then (s.elapse dt).endWindow else s.elapse dt) := rfl

/-- The close of a window that is a collision, as far as its judgement (R18, R19). -/
theorem State.closeWindow_of_collision {s : State} {n : Nat} (judged : s.link.toJudge = some n)
    (collides : s.link.readBack.verdict = .collision) : s.closeWindow = s.setLink { s.link with
      collisions := min 3 (s.link.collisions + 1), judged := some ⟨n, s.link.collisions, s.link.readBack⟩
      readBack := ReadBack.cleared, toJudge := none, buildOpen := false } := by
  rw [State.closeWindow_of_judged judged, collides]
  rfl

/-- Settles O32: the close makes the judgement, and the report moves the station by its state and the count. -/
theorem collisionsMoveTheStation : Obligations.CollisionsMoveTheStation := by
  intro dt s a n u reading mode judged outside record
  have closed : u.windowClosed = true := State.windowClosed_of_judged reading mode judged outside
  have collides : u.link.readBack.verdict = .collision := ReadBack.verdict_collision record
  have verdict : u.link.verdict = some .collision := by rw [Link.verdict, judged]; exact congrArg some collides
  obtain ⟨v, close, link, count⟩ : ∃ v, u.closeWindow = v ∧ v = u.setLink v.link ∧
      v.link.collisions = min 3 (u.link.collisions + 1) :=
    ⟨_, State.closeWindow_of_collision judged collides, rfl, rfl⟩
  have due : v.roundEndDue = u.roundEndDue := by
    rw [← close, State.closeWindow_of_collision judged collides]
    rfl
  have ends : exec (.ownWindowClose dt) s = .next v.collided := by
    rw [exec_ownWindowClose, State.windowIf, if_pos closed, State.endWindow_of_collision verdict, close]
  refine ⟨fun founding => ?founding, fun joined => ⟨fun few => ?few, fun two => ?third⟩⟩
  case founding =>
    have station : v.station = u.station := by rw [link]; rfl
    obtain ⟨state, reports, timer, extra, mode⟩ := State.collided_founding_moves (s := v) (by rw [station, founding])
    refine ⟨_, ends, state, reports.before (by rw [link]; rfl), by rw [timer, link]; rfl, extra, mode, ?_⟩
    rw [State.collided_of_founding (by rw [station, founding])]
    refine ⟨?_, ?_⟩
    · rw [State.enterListen_roundEndDue (a := a) (by simp [station, founding, StationState.closesRounds])
        (by rw [link]; exact reading), ← due]
      simp [State.roundEndDue, station, founding, State.round, State.reading]
    · simp only [State.enterListen_discipline, State.enterListen_peers, State.enterListen_agreement,
        State.enterListen_anchor, State.enterListen_source, State.enterListen_gens]
      rw [link]
      exact ⟨rfl, rfl, rfl, rfl, rfl, rfl⟩
  case few =>
    have stays : v.collided = v := by
      refine State.collided_of_few ?_ (by omega)
      rw [link, State.setLink_station]
      rcases joined with h | h | h | h <;> rw [h] <;> decide
    exact ⟨v, by rw [ends, stays], link, by omega⟩
  case third =>
    have group : u.station.state.collides = true := (StationState.collides_iff _).mpr joined
    have station : v.station = u.station := by rw [link]; rfl
    have third : u.thirdCollision = true := by simp [State.thirdCollision, closed, verdict, group, two]
    have both : exec (.collision dt) s = .next v.collided := by
      rw [exec_collision, if_pos third, State.endWindow_of_collision verdict, close]
    obtain ⟨state, fault, changed, conflict, mode, three, discipline, peers, agreement, anchor⟩ :=
      State.collided_third_moves (s := v) (by rwa [station]) (by omega)
    refine ⟨_, both, ends, state, fault, changed.before (by rw [link]; rfl), ?_, mode, three, ?_, ?_, ?_, ?_⟩
    · have slot : v.config.slot = u.config.slot := by rw [link]; rfl
      rw [slot] at conflict
      exact conflict.before (by rw [link]; rfl)
    · rw [discipline, link]; rfl
    · rw [peers, link]; rfl
    · rw [agreement, link]; rfl
    · rw [anchor, link]; rfl

/-! ### A frame of the own window (R18; log 19) -/

section
variable {n : Nat} {s : State} {b : Option Beacon}

theorem State.windowOpen_iff : s.windowOpen n = true ↔
    s.link.toJudge = some n ∨ ∃ x, s.reading = some x ∧ x / 8000000 = n ∧ slotOf x = s.config.slot := by
  cases reading : s.reading with
  | none => simp [State.windowOpen, reading]
  | some x => simp [State.windowOpen, reading, inWindowOf, roundOf, roundNs]

theorem State.readBackFrame_open (mode : s.link.mode = .windowed) (h : s.windowOpen n = true) : s.readBackFrame n b =
    s.setLink { s.link with readBack := s.link.readBack.add s.config.tag b } := by
  simp [State.readBackFrame, mode, h]

theorem State.readBackFrame_closed (mode : s.link.mode = .windowed) (h : s.windowOpen n = false)
    (unjudged : ∀ j, s.link.judged = some j → j.round ≠ n) : s.readBackFrame n b = s := by
  have forgotten : s.link.judgedIn n = none := by
    simpa [Link.judgedIn, Option.filter_eq_none_iff] using unjudged
  simp [State.readBackFrame, mode, h, forgotten]

theorem State.readBackFrame_judged {j : JudgedWindow} (mode : s.link.mode = .windowed) (h : s.windowOpen n = false)
    (judged : s.link.judged = some j) (round : j.round = n) : s.readBackFrame n b = s.judgeAnew j b := by
  have held : s.link.judgedIn n = some j := by simp [Link.judgedIn, judged, round]
  simp [State.readBackFrame, mode, h, held]

end

/-- A frame that is not the station's own: damaged, or with another tag. -/
def foreignFrame (tag : Nat) (b : Option Beacon) : Prop := b = none ∨ ∃ x, b = some x ∧ x.tag ≠ tag

section
variable {tag : Nat} {b : Option Beacon}

theorem ReadBack.add_damaged (r : ReadBack) (tag : Nat) : r.add tag none = { r with damaged := true } := rfl

theorem ReadBack.add_other {x : Beacon} (r : ReadBack) (h : x.tag ≠ tag) : r.add tag (some x) = { r with other := true } :=
  if_pos h

theorem ReadBack.add_own {x : Beacon} (r : ReadBack) (h : x.tag = tag) : (r.add tag (some x)).clean = true ∧
    (r.add tag (some x)).damaged = r.damaged ∧ (r.add tag (some x)).other = r.other := by
  cases clean : r.clean <;> simp [ReadBack.add, h, clean]

/-- A frame that is not the own one spoils the window (R18). -/
theorem ReadBack.verdict_add_foreign (r : ReadBack) (h : foreignFrame tag b) : (r.add tag b).verdict = .collision := by
  refine ReadBack.verdict_collision ?_
  rcases h with rfl | ⟨x, rfl, other⟩
  · exact .inr (.inr rfl)
  · rw [r.add_other other]; exact .inr (.inl rfl)

/-- A second clean copy of the own frame alone decides nothing (log 18). -/
theorem ReadBack.verdict_add_own {r : ReadBack} (clean : r = ⟨true, false, false, false⟩) (h : ¬foreignFrame tag b) :
    (r.add tag b).verdict = .undecided := by
  subst clean
  match b, h with
  | none, h => exact absurd (.inl rfl) h
  | some x, h =>
    have own : x.tag = tag := by_contra fun k => h (.inr ⟨x, rfl, k⟩)
    simp [ReadBack.add, own, ReadBack.verdict]

end

section
variable {s : State} {j : JudgedWindow} {b : Option Beacon}

/-- A window judged clean that a foreign frame spoils: the count is raised from before the judgement, and the collision
reported (R19; log 19). -/
theorem State.judgeAnew_spoiled (clean : j.record = ⟨true, false, false, false⟩) (foreign : foreignFrame s.config.tag b) :
    s.judgeAnew j b = (s.setLink { s.link with
      judged := some (j.add s.config.tag b), collisions := min 3 (j.before + 1) }).collided := by
  have verdict : (j.add s.config.tag b).record.verdict = .collision := ReadBack.verdict_add_foreign _ foreign
  have before : j.record.verdict = .clean := by rw [clean]; rfl
  simp [State.judgeAnew, JudgedWindow.collidesWith, Link.countAnew, verdict, before, WindowVerdict.count]

theorem State.judgeAnew_repeated (clean : j.record = ⟨true, false, false, false⟩) (own : ¬foreignFrame s.config.tag b) :
    s.judgeAnew j b = s.setLink { s.link with judged := some (j.add s.config.tag b), collisions := j.before } := by
  have verdict : (j.add s.config.tag b).record.verdict = .undecided := ReadBack.verdict_add_own clean own
  have before : j.record.verdict = .clean := by rw [clean]; rfl
  simp [State.judgeAnew, JudgedWindow.collidesWith, Link.countAnew, verdict, before, WindowVerdict.count]

theorem State.judgeAnew_collided (collided : j.record.clean = false ∨ j.record.other = true ∨ j.record.damaged = true) :
    s.judgeAnew j b = s.setLink { s.link with judged := some (j.add s.config.tag b) } := by
  have before : j.record.verdict = .collision := ReadBack.verdict_collision collided
  simp [State.judgeAnew, JudgedWindow.collidesWith, Link.countAnew, before]

end

theorem JudgedWindow.add_eq {j : JudgedWindow} {n : Nat} (round : j.round = n) (tag : Nat) (b : Option Beacon) :
    j.add tag b = ⟨n, j.before, j.record.add tag b⟩ := by
  rw [← round]
  rfl

/-- Settles O27: the record while the window is open, the judgement of it made anew after. -/
theorem ownWindowReadBack : Obligations.OwnWindowReadBack := by
  intro dt bytes since a s u m n stillOpen foreign running marked mode agreed slot
  have goes : exec (.frameReceived dt bytes since) s = .next (u.readBackFrame n (parseBeacon bytes)) := by
    rw [exec_frameReceived, State.frameCompletes_windowed running (by rw [mode]; decide) marked agreed, if_pos slot]
    rfl
  have shut (closed : ¬stillOpen) : u.windowOpen n = false :=
    Bool.eq_false_iff.mpr fun h => closed (State.windowOpen_iff.mp h)
  refine ⟨fun opened => ?opened, fun closed unjudged => ?forgotten,
    fun j closed judged round => ⟨fun clean spoils => ⟨fun joined => ⟨fun few => ?few, fun two => ?third⟩, fun founding => ?founding⟩,
      fun clean own => ?repeated, fun collided => ?collided⟩⟩
  case opened =>
    rw [State.readBackFrame_open mode (State.windowOpen_iff.mpr opened)] at goes
    refine ⟨_, goes, rfl, fun damaged => ?_, fun b parsed other => ?_, fun b parsed own => ?_⟩
    · rw [State.setLink_link, damaged]; rfl
    · rw [State.setLink_link, parsed, ReadBack.add_other _ other]
    · rw [State.setLink_link, parsed]; exact ReadBack.add_own _ own
  case forgotten => rw [goes, State.readBackFrame_closed mode (shut closed) unjudged]
  all_goals rw [State.readBackFrame_judged mode (shut closed) judged round] at goes
  case few =>
    rw [State.judgeAnew_spoiled clean spoils, State.collided_of_few, JudgedWindow.add_eq round, min_eq_right (by omega)] at goes
    · exact ⟨_, goes⟩
    · rw [State.setLink_station]
      rcases joined with h | h | h | h <;> rw [h] <;> decide
    · exact (min_le_right ..).trans_lt (by omega)
  case third =>
    rw [State.judgeAnew_spoiled clean spoils] at goes
    obtain ⟨state, fault, changed, conflict, off, three, -⟩ := State.collided_third_moves
      (s := u.setLink { u.link with
        judged := some (j.add u.config.tag (parseBeacon bytes)), collisions := min 3 (j.before + 1) })
      ((StationState.collides_iff _).mpr joined) (by simp [two])
    exact ⟨_, goes, state, fault, changed.before rfl, conflict.before rfl, off, three⟩
  case founding =>
    rw [State.judgeAnew_spoiled clean spoils] at goes
    obtain ⟨state, changed, timer, -⟩ := State.collided_founding_moves
      (s := u.setLink { u.link with
        judged := some (j.add u.config.tag (parseBeacon bytes)), collisions := min 3 (j.before + 1) }) founding
    exact ⟨_, goes, state, changed.before rfl, timer⟩
  case repeated =>
    rw [State.judgeAnew_repeated clean own, JudgedWindow.add_eq round] at goes
    exact ⟨_, goes⟩
  case collided =>
    rw [State.judgeAnew_collided collided, JudgedWindow.add_eq round] at goes
    exact ⟨_, goes⟩

end Sys2Proof.Machine
end

section
/-! PROOFS. What an operation says: the record of a kind that it leaves (R166); and the round end, signalled (R3) and taken in
its stages (R54). -/

namespace Sys2Proof.Machine

/-! ### The record of a kind left as it is (R166) -/

/-- What leads from `s` to `t` leaves the enables and says nothing of kind `k`. -/
structure State.SilentOn (k : Fin 27) (s t : State) : Prop where
  enables : t.notices.enables = s.notices.enables
  record : t.notices.records[k] = s.notices.records[k]

section
variable {k : Fin 27} {s t u : State}

theorem State.SilentOn.of_notices (h : t.notices = s.notices) : State.SilentOn k s t := by
  constructor
  all_goals simp only [h]

theorem State.SilentOn.trans (first : State.SilentOn k s t) (second : State.SilentOn k t u) : State.SilentOn k s u :=
  ⟨second.enables.trans first.enables, second.record.trans first.record⟩

/-- What comes before does not matter where it leaves the notices. -/
theorem State.SilentOn.since (h : State.SilentOn k t u) (same : t.notices = s.notices) : State.SilentOn k s u :=
  (State.SilentOn.of_notices same).trans h

/-- A report stands where nothing of its kind is said after it. -/
theorem State.SilentOn.after {n : Notice} (h : State.SilentOn k t u) (reports : Reports s t n) (kind : n.kind = k := by rfl) :
    Reports s u n := by
  subst kind
  exact reports.after h.record

theorem State.SilentOn.before {n : Notice} (h : State.SilentOn k s t) (reports : Reports t u n) : Reports s u n :=
  reports.before h.enables

theorem State.SilentOn.raise {n : Notice} (same : t.notices = s.notices) (other : k ≠ n.kind) :
    State.SilentOn k s (t.raise n) :=
  (State.SilentOn.of_notices same).trans ⟨raise_enables .., raise_record_other _ _ _ other⟩

theorem State.SilentOn.raiseAll {ns : List Notice} (same : t.notices = s.notices) (others : ∀ n ∈ ns, k ≠ n.kind) :
    State.SilentOn k s (t.raiseAll ns) :=
  (State.SilentOn.of_notices same).trans ⟨State.raiseAll_enables .., State.raiseAll_record_other others t⟩

theorem State.SilentOn.applyDue (same : t.notices = s.notices) (other : k ≠ 22) : State.SilentOn k s t.applyDue := by
  unfold State.applyDue State.applyChange
  repeat' split
  · exact .raise same other
  all_goals exact .of_notices same

variable (s)

theorem State.SilentOn.move (st : StationState) (c : Cause) (other : k ≠ 1) : State.SilentOn k s (s.move st c) :=
  (State.SilentOn.raise (n := .stateChanged st c) rfl other).trans (.of_notices (by rw [State.move_notices]))

theorem State.SilentOn.stepClock (amount : Int) (other : k ≠ 22) : State.SilentOn k s (s.stepClock amount) := by
  unfold State.stepClock
  repeat' split
  · exact .of_notices rfl
  · exact .of_notices rfl
  · refine State.SilentOn.trans (.applyDue ?_ other) (.of_notices (State.openOccasion_notices _))
    simp

theorem State.SilentOn.stepNoticed (o : StepOrigin) (amount : Int) (label : k ≠ 22) (stepped : k ≠ 6) :
    State.SilentOn k s (s.stepNoticed o amount) := by
  unfold State.stepNoticed
  split
  · exact .stepClock _ _ label
  · exact (State.SilentOn.stepClock s amount label).trans (.raise (n := .stepped o amount) rfl stepped)

theorem CloseChange.kind_of_mem_notices {c : CloseChange} {slot : Fin 32} {tag : Nat} {n : Notice}
    (h : n ∈ c.notices slot tag) : n.kind = 9 ∨ n.kind = 10 ∨ n.kind = 11 ∨ n.kind = 12 := by
  cases c <;> simp only [CloseChange.notices, List.not_mem_nil, List.mem_singleton] at h <;> subst h <;>
    simp [Notice.kind]

/-- A round close speaks of peers alone (R57, R64). -/
theorem State.SilentOn.closeTable (other : k ≠ 9 ∧ k ≠ 10 ∧ k ≠ 11 ∧ k ≠ 12) : State.SilentOn k s s.closeTable := by
  refine .raiseAll rfl fun n mem => ?_
  obtain ⟨i, -, mem⟩ := List.mem_flatMap.mp mem
  rcases CloseChange.kind_of_mem_notices mem with h | h | h | h <;> rw [h]
  · exact other.1
  · exact other.2.1
  · exact other.2.2.1
  · exact other.2.2.2

theorem State.SilentOn.labelConflict (n : Nat) (other : k ≠ 23) : State.SilentOn k s (s.labelConflict n) :=
  .raise rfl other

theorem State.SilentOn.adopt (slot : Fin 32) (n : LabelNotice) (pending : k ≠ 21) (applied : k ≠ 22) :
    State.SilentOn k s (s.adopt slot n) := by
  unfold State.adopt
  exact State.SilentOn.trans (.raise rfl (by exact pending)) (.applyDue rfl applied)

/-- The label notices of an agreement point speak of labels alone (R112 to R114). -/
theorem State.SilentOn.examineLabels (cs : List (Fin 32)) (other : k ≠ 21 ∧ k ≠ 22 ∧ k ≠ 23) :
    State.SilentOn k s (s.examineLabels cs) := by
  obtain ⟨pending, applied, conflict⟩ := other
  unfold State.examineLabels
  dsimp only
  repeat' split
  · exact .adopt _ _ _ pending applied
  · exact .of_notices rfl
  · exact .labelConflict _ _ conflict
  · exact .of_notices rfl
  · exact .labelConflict _ _ conflict

theorem State.SilentOn.handToPeer (slot : Fin 32) (lag : Option Int) (b : Beacon) (lost : k ≠ 11) (range : k ≠ 14) :
    State.SilentOn k s (s.handToPeer slot lag b) := by
  refine .raiseAll rfl fun n mem => ?_
  rcases List.mem_append.mp mem with mem | mem
  · obtain ⟨-, mem⟩ := List.mem_ite_nil_right.mp mem
    rw [List.mem_singleton.mp mem]
    exact lost
  · rw [kind_of_mem_sampleNotices mem]
    exact range

end

/-! ### The round end signalled (R3) -/

theorem exec_roundEnd (dt : Elapsed) (s : State) : exec (.roundEnd dt) s = .next (s.elapse dt).roundEndIf := rfl

section
variable {s : State} {index : Option Nat}

theorem State.roundEndIf_of_due (due : s.roundEndDue = some index) : s.roundEndIf = s.roundEnd index := by
  simp only [State.roundEndIf, due]

theorem State.roundEndIf_of_none (none : s.roundEndDue = none) : s.roundEndIf = s := by
  simp only [State.roundEndIf, none]

theorem State.roundEndTo_of_named {named : Option Nat → State → Bool} (due : s.roundEndDue = some index)
    (h : named index s = true) : s.roundEndTo named = s.roundEnd index := by
  simp only [State.roundEndTo, due, if_pos h]

theorem exec_roundEnd_due {dt : Elapsed} {s : State} (due : (s.elapse dt).roundEndDue = some index) :
    exec (.roundEnd dt) s = .next ((s.elapse dt).roundEnd index) := by
  rw [exec_roundEnd, State.roundEndIf_of_due due]

theorem StationState.closesRounds_iff (st : StationState) : st.closesRounds = true ↔ st = .listen ∨ st = .founding ∨
    st = .joining ∨ st = .agreed ∨ st = .isolated ∨ st = .withdrawing := by
  cases st <;> simp [StationState.closesRounds]

theorem roundOf_eq (a : Nat) : roundOf a = a / 8000000 := rfl

theorem State.roundEndDue_of_silent (h : s.station.state.closesRounds = false) : s.roundEndDue = none := by
  simp [State.roundEndDue, h]

section
variable {a : Nat} (closes : s.station.state.closesRounds = true) (reading : s.reading = some a)
include reading

theorem State.roundEndDue_of_unentered (h : s.link.reaches (roundOf a) = false ∨ s.link.startsLater (roundOf a) = false) :
    s.roundEndDue = none := by
  have round : s.round = some (roundOf a) := by rw [State.round, reading]; rfl
  unfold State.roundEndDue
  split
  · simp only [round]
    exact if_neg (by rcases h with h | h <;> simp [h])
  · rfl

include closes

theorem State.roundEndDue_of_entered (followed : s.link.reaches (roundOf a) = true)
    (later : s.link.startsLater (roundOf a) = true) (pos : 0 < roundOf a) :
    s.roundEndDue = some (some (roundOf a - 1)) := by
  simp [State.roundEndDue, closes, State.round, reading, followed, later, pos]

end

section
variable {half : Nat} (closes : s.station.state.closesRounds = true) (unset : s.reading = none)
  (listens : s.link.listenRound = some half)
include closes unset listens

theorem State.roundEndDue_of_listened (passed : 16000000 ≤ half) : s.roundEndDue = some none := by
  simp [State.roundEndDue, closes, State.round, unset, listens, passed]

theorem State.roundEndDue_of_listening (early : half < 16000000) : s.roundEndDue = none := by
  simp [State.roundEndDue, closes, State.round, unset, listens, early]

end

theorem Link.reaches_iff {l : Link} {n : Nat} : l.reaches n = true ↔ ∀ m, l.followed = some m → m < n := by
  cases h : l.followed <;> simp [Link.reaches, h]

theorem Link.startsLater_iff {l : Link} {n : Nat} : l.startsLater n = true ↔ ∀ m, l.lastRoundEnd = some m → m + 1 < n := by
  cases h : l.lastRoundEnd <;> simp [Link.startsLater, h]

end

theorem State.signal_none_lastRoundEnd (s : State) : (s.signal none).link.lastRoundEnd = s.link.lastRoundEnd := rfl

theorem State.signal_listenRound {s : State} {half : Nat} (listens : s.link.listenRound = some half) :
    (s.signal none).link.listenRound = some (half - 16000000) := by
  have length : listenRoundHalfNs = 16000000 := rfl
  simp only [State.signal, State.setLink_link, listens, Option.map_some, length]

/-- Settles O33: by what R3 asks of the reading, or of the rounds counted in LISTEN. -/
theorem roundEndSignalled : Obligations.RoundEndSignalled := by
  intro dt s u
  have goes : exec (.roundEnd dt) s = .next u.roundEndIf := exec_roundEnd dt s
  clear_value u
  have idle (none : u.roundEndDue = none) : exec (.roundEnd dt) s = .next u := by
    rw [goes, State.roundEndIf_of_none none]
  refine ⟨fun silent => idle (State.roundEndDue_of_silent ?_), fun group => ?_⟩
  · rcases silent with h | h | h <;> rw [h] <;> rfl
  have closes : u.station.state.closesRounds = true := (StationState.closesRounds_iff _).mpr group
  simp only [← roundOf_eq]
  refine ⟨fun a reading followed later pos => ?entered, fun a m reading held within => idle ?followed,
    fun a l reading held within => idle ?signalled, fun half unset listens passed => ?listened,
    fun half unset listens early => idle (State.roundEndDue_of_listening closes unset listens early)⟩
  case entered =>
    have due : u.roundEndDue = some (some (roundOf a - 1)) := State.roundEndDue_of_entered closes reading
      (Link.reaches_iff.mpr followed) (Link.startsLater_iff.mpr later) pos
    refine ⟨by rw [goes, State.roundEndIf_of_due due], congrArg some ?_, rfl, rfl⟩
    cases held : u.link.lastRoundEnd with
    | none => rfl
    | some l =>
      have := later l held
      exact max_eq_right (by omega)
  case followed =>
    refine State.roundEndDue_of_unentered reading (.inl (Bool.eq_false_iff.mpr fun h => ?_))
    exact within.not_gt (Link.reaches_iff.mp h m held)
  case signalled =>
    refine State.roundEndDue_of_unentered reading (.inr (Bool.eq_false_iff.mpr fun h => ?_))
    exact within.not_gt (Link.startsLater_iff.mp h l held)
  case listened =>
    exact ⟨by rw [goes, State.roundEndIf_of_due (State.roundEndDue_of_listened closes unset listens passed)],
      State.signal_none_lastRoundEnd u, State.signal_listenRound listens⟩

/-! ### The stages of a round end (R54) -/

section
variable (s : State) (index : Option Nat)

/-- The table closed after the signal, before the Station Controller acts (R54). -/
theorem State.closeRound_eq : s.closeRound index = ((s.signal index).closeTable).controlClose := rfl

theorem State.roundEnd_eq : s.roundEnd index = (s.closeRound index).agreementPoint.settleOwed 2 := rfl

@[simp] theorem State.signal_owed : (s.signal index).link.owedRoundEnd = s.link.owedRoundEnd := by
  cases index <;> rfl

@[simp] theorem State.signal_mode : (s.signal index).link.mode = s.link.mode := by
  cases index <;> rfl

/-- A signal leaves every block but the Link Unit. -/
theorem State.signal_frame : s.signal index = s.setLink (s.signal index).link := by
  cases index <;> rfl

theorem State.closeTable_entry (i : Fin 32) : s.closeTable.peers.entries[i] = (s.peers.entries[i]).close s.config.admission := by
  simp only [State.closeTable, State.raiseAll_peers, State.setPeers_peers]
  exact tabulate_get ..

theorem State.closeTable_hold : s.closeTable.peers.hold = s.peers.hold - 1 := by
  simp [State.closeTable]

theorem State.closeTable_frame : s.closeTable = (s.setPeers s.closeTable.peers).setNotices s.closeTable.notices := by
  have raised := State.raiseAll_frame
    ((List.finRange 32).flatMap fun i => s.peers.entries[i].closeNotices s.config.admission i)
    (s.setPeers ⟨tabulate 32 fun i => s.peers.entries[i].close s.config.admission, s.peers.hold - 1⟩)
  have peers : s.closeTable.peers = ⟨tabulate 32 fun i => s.peers.entries[i].close s.config.admission, s.peers.hold - 1⟩ := by
    simp [State.closeTable]
  rw [peers]
  exact raised

@[simp] theorem State.signal_config : (s.signal index).config = s.config := by simp [State.config]

@[simp] theorem State.closeTable_config : s.closeTable.config = s.config := by simp [State.config]

theorem State.closeTable_signal_frame : (s.signal index).closeTable = ((s.setLink (s.signal index).link).setPeers
    (s.signal index).closeTable.peers).setNotices (s.signal index).closeTable.notices := by
  conv_lhs => rw [State.closeTable_frame]
  conv_lhs => enter [1, 1]; rw [State.signal_frame]

/-- A round close says nothing but of peers. -/
theorem State.SilentOn.closed {k : Fin 27} (other : k ≠ 9 ∧ k ≠ 10 ∧ k ≠ 11 ∧ k ≠ 12) :
    State.SilentOn k s (s.signal index).closeTable :=
  State.SilentOn.trans (t := s.signal index) (.of_notices (by simp)) (.closeTable _ other)

end

end Sys2Proof.Machine
end

section
/-! PROOFS. Integration (R28, R31): entry into JOINING, the clock set or stepped, the round end that the step owes (R3), and the
hand-off. -/

namespace Sys2Proof.Machine

/-! ### A round end in JOINING without an observation (R33, R35, R71) -/

section
variable {p : PeerEntry} {admission : Nat}

theorem PeerEntry.close_of_self (h : p.state = .self) : p.close admission = p := if_pos h

theorem PeerEntry.close_of_other (h : p.state ≠ .self) : p.close admission =
    ((p.closing admission).applyTo p.countStreaks.age).openRound p.closed p.deviation := if_neg h

theorem PeerEntry.closed_of_heard (h : p.observation ≠ .none) : p.closed = p.observation :=
  if_neg (by simp [h])

/-- No beacon of the entry counts as an observation of this round. -/
def PeerEntry.Unheard (p : PeerEntry) : Prop := p.observation ≠ .good ∧ p.observation ≠ .wild

/-- An entry without an observation does not contribute after the close (R55, R68). -/
theorem PeerEntry.Unheard.contributes (h : p.Unheard) (before : Bool) : (p.close admission).contributes before = false := by
  refine Bool.eq_false_iff.mpr fun k => ?_
  obtain ⟨counted, -, -, result⟩ := PeerEntry.contributes_iff.mp k
  by_cases own : p.state = .self
  · rw [PeerEntry.close_of_self own, own] at counted
    cases counted
  have closed : (p.close admission).resultObservation = p.closed := by rw [PeerEntry.close_of_other own]; rfl
  have unusable : p.closed ≠ .good ∧ p.closed ≠ .wild := by
    unfold PeerEntry.closed
    split
    · decide
    · exact h
  rw [closed] at result
  exact result.elim unusable.1 fun w => unusable.2 w.1

end

/-- No entry of the table has an observation of this round. -/
def PeerTable.Unheard (t : PeerTable) : Prop := ∀ i : Fin 32, (t.entries[i]).Unheard

theorem State.contributors_eq_nil {s : State} (h : ∀ i : Fin 32, (s.peers.entries[i]).contributes s.beforeJoiningStep = false) :
    s.contributors = [] :=
  List.eq_nil_iff_forall_not_mem.mpr fun i mem => by
    rw [State.mem_contributors, h i] at mem
    exact Bool.false_ne_true mem

theorem State.controlClose_joining {s : State} (h : s.station.state = .joining) : s.controlClose = s.countSilence := by
  simp only [State.controlClose, h]

/-- Below 16 silent closes the silence count alone changes (R35). -/
theorem State.countSilence_stays {s : State} (few : s.station.silenceCount + 1 < 16) : s.countSilence =
    s.setStation { s.station with silenceCount := if s.silent then s.station.silenceCount + 1 else 0 } := by
  unfold State.countSilence
  split
  next silent => simp [show ¬16 ≤ s.station.silenceCount + 1 by omega]
  next => rfl

theorem State.agreementPoint_joining {s : State} (h : s.station.state = .joining) :
    s.agreementPoint = (s.examineLabels s.contributors).pointJoining := by
  simp only [State.agreementPoint, h]

/-- Without a contributor an agreement point of JOINING is a short round (R33, R71). -/
theorem State.agreementPoint_joining_short {s : State} (joining : s.station.state = .joining) (none : s.contributors = []) :
    s.agreementPoint = s.countShort.setStation { s.station with settleCount := 0 } := by
  have short : s.quorum = false := by simp [State.quorum, joining, none]
  rw [State.agreementPoint_joining joining, none, State.examineLabels_nil, State.pointJoining,
    if_neg (by rw [short]; exact Bool.false_ne_true)]
  simp only [State.countShort_station]

/-- What a silent round end leaves of a JOINING station. -/
structure State.Rests (s t : State) : Prop where
  station : ∃ k, t.station = { s.station with silenceCount := k, settleCount := 0 }
  discipline : t.discipline = s.discipline
  mode : t.link.mode = s.link.mode
  collisions : t.link.collisions = s.link.collisions
  silent : State.SilentOn 1 s t

/-- A round end without an observation counts the silence and a short round (R33, R35, R71). -/
theorem State.passRound_rests {s : State} (index : Option Nat) (joining : s.station.state = .joining)
    (few : s.station.silenceCount + 1 < 16) (unheard : s.peers.Unheard) :
    s.Rests (s.passRound index) ∧ (s.passRound index).link.owedRoundEnd = s.link.owedRoundEnd := by
  obtain ⟨k, closed⟩ : ∃ k, s.closeRound index =
      (s.signal index).closeTable.setStation { s.station with silenceCount := k } := by
    rw [State.closeRound_eq, State.controlClose_joining (by simp [joining]), State.countSilence_stays (by simpa using few)]
    exact ⟨_, by rw [State.closeTable_station, State.signal_station]⟩
  have none : (s.closeRound index).contributors = [] := by
    refine State.contributors_eq_nil fun i => ?_
    rw [closed]
    simp only [State.setStation_peers, State.closeTable_entry, State.signal_peers]
    exact (unheard i).contributes _
  have passed : s.passRound index = (s.closeRound index).countShort.setStation
      { s.station with silenceCount := k, settleCount := 0 } := by
    rw [State.passRound, State.agreementPoint_joining_short (by rw [closed]; exact joining) none, closed]
    rfl
  rw [passed, closed]
  refine ⟨⟨⟨k, rfl⟩, by simp, by simp, by cases index <;> simp [State.signal], ?_⟩, by simp⟩
  exact (State.SilentOn.closed s index (by decide)).trans (.of_notices (by simp))

theorem State.Rests.refl {s : State} (settle : s.station.settleCount = 0) : s.Rests s :=
  ⟨⟨s.station.silenceCount, by rw [← settle]⟩, rfl, rfl, rfl, .of_notices rfl⟩

/-- Owed round ends without an observation leave a JOINING station at rest (R3; log 7). -/
theorem State.settleOwed_rests {s : State} (joining : s.station.state = .joining) (few : s.station.silenceCount + 1 < 16)
    (settle : s.station.settleCount = 0) (unheard : s.link.owedRoundEnd = none ∨ s.peers.Unheard) :
    s.Rests (s.settleOwed 2) := by
  cases owed : s.link.owedRoundEnd with
  | none =>
    rw [State.settleOwed_none owed]
    exact .refl settle
  | some n =>
    obtain ⟨rests, taken⟩ := State.passRound_rests (s := s.setLink { s.link with owedRoundEnd := none }) (some n) joining few
      (unheard.resolve_left (by rw [owed]; exact Option.some_ne_none n))
    have passed : s.settleOwed 2 = (s.setLink { s.link with owedRoundEnd := none }).passRound (some n) := by
      have once : s.settleOwed 2 = ((s.setLink { s.link with owedRoundEnd := none }).passRound (some n)).settleOwed 1 := by
        rw [State.settleOwed]
        simp only [owed]
      rw [once, State.settleOwed_none taken]
    rw [passed]
    exact ⟨rests.station, rests.discipline, rests.mode, rests.collisions, rests.silent.since rfl⟩

/-! ### The clock set or stepped (R28, R51, R85, R87) -/

theorem State.stepClock_discipline {s : State} {c : Nat} (amount : Int) (clock : s.discipline.clock = some c) :
    (s.stepClock amount).discipline = { s.discipline with
      clock := some (if amount = 0 then c else clampUnits (c + amount * 1000000000)), slew := none } := by
  simp only [State.stepClock, clock]
  by_cases zero : amount = 0
  · rw [if_pos zero, if_pos zero, State.setDiscipline_discipline]
  · rw [if_neg zero, if_neg zero]
    simp [unitsPerNs]

theorem State.stepClock_keeps (amount : Int) (s : State) :
    (s.stepClock amount).link.mode = s.link.mode ∧ (s.stepClock amount).link.collisions = s.link.collisions := by
  unfold State.stepClock
  repeat' split
  · exact ⟨rfl, rfl⟩
  · exact ⟨rfl, rfl⟩
  · rw [State.openOccasion_link]
    simp [Link.onStep]

/-- After a step no entry has an observation of this round (R51). -/
theorem PeerTable.onStep_unheard (t : PeerTable) : t.onStep.Unheard := by
  intro i
  have entry : t.onStep.entries[i] = (t.entries[i]).onStep := tabulate_get ..
  rw [entry]
  unfold PeerEntry.onStep
  dsimp only
  split
  next => exact ⟨Observation.noConfusion, Observation.noConfusion⟩
  next heard => exact not_or.mp heard

theorem State.stepClock_unheard {s : State} (settled : s.link.owedRoundEnd = none) (amount : Int) :
    (s.stepClock amount).link.owedRoundEnd = none ∨ (s.stepClock amount).peers.Unheard := by
  unfold State.stepClock
  repeat' split
  · exact .inl settled
  · exact .inl settled
  · simpa using .inr s.peers.onStep_unheard

theorem State.setClock_link (units : Nat) (s : State) : (s.setClock units).link = { s.link with
    followed := (s.setClock units).link.followed, listenRound := none, furthest := (s.setClock units).link.furthest
    buildOpen := (s.setClock units).link.buildOpen } := by
  unfold State.setClock
  dsimp only
  conv_lhs => rw [State.openOccasion_link]
  conv_rhs => rw [State.openOccasion_link]

theorem State.setClock_discipline (units : Nat) (s : State) :
    (s.setClock units).discipline = { s.discipline with clock := some (clampUnits units) } := by
  simp [State.setClock]

section
variable (lag : Option Int) (m : Mark) (b : Beacon) (s : State)

/-- The amount by which an integrating beacon steps a valid clock (R28; log 32). -/
def integrationStep (reading : Nat) : Int :=
  match lag with
  | some x => -x
  | none => ((intendedDeparture b.round b.slot + m.since : Nat) : Int) - reading

theorem State.integrateClock_of_invalid (unset : s.reading = none) :
    s.integrateClock lag m b = s.setClock ((intendedDeparture b.round b.slot + m.since) * unitsPerNs) := by
  simp only [State.integrateClock, unset]

theorem State.integrateClock_of_valid {a : Nat} (reading : s.reading = some a) :
    s.integrateClock lag m b = s.stepClock (integrationStep lag m b a) := by
  cases lag <;> simp only [State.integrateClock, reading, integrationStep]

theorem State.integrateClock_source : (s.integrateClock lag m b).source = s.source := by
  unfold State.integrateClock
  dsimp only
  split <;> simp

theorem State.integrateClock_keeps : (s.integrateClock lag m b).station = s.station ∧
    (s.integrateClock lag m b).link.mode = s.link.mode ∧
    (s.integrateClock lag m b).link.collisions = s.link.collisions ∧ State.SilentOn 1 s (s.integrateClock lag m b) := by
  cases reading : s.reading with
  | none =>
    rw [State.integrateClock_of_invalid _ _ _ _ reading, State.setClock_link]
    exact ⟨by simp, rfl, rfl, .of_notices (by simp)⟩
  | some a =>
    rw [State.integrateClock_of_valid _ _ _ _ reading]
    obtain ⟨mode, collisions⟩ := s.stepClock_keeps (integrationStep lag m b a)
    exact ⟨by simp, mode, collisions, .stepClock _ _ (by decide)⟩

theorem State.integrateClock_unheard (settled : s.link.owedRoundEnd = none) :
    (s.integrateClock lag m b).link.owedRoundEnd = none ∨ (s.integrateClock lag m b).peers.Unheard := by
  cases reading : s.reading with
  | none =>
    rw [State.integrateClock_of_invalid _ _ _ _ reading, State.setClock_link]
    exact .inl settled
  | some a =>
    rw [State.integrateClock_of_valid _ _ _ _ reading]
    exact State.stepClock_unheard settled _

end

/-! ### Entry into JOINING (R22) -/

section
variable (c : Cause) (s : State)

theorem State.enterJoining_station : (s.enterJoining c).station =
    { (s.move .joining c).station with settleCount := 0, silenceCount := 0 } := by
  simp [State.enterJoining, State.clearCounts]

theorem State.enterJoining_discipline : (s.enterJoining c).discipline = { s.discipline with joiningStepTaken := false } := by
  simp [State.enterJoining, State.clearCounts]

theorem State.enterJoining_agreement :
    (s.enterJoining c).agreement = { s.agreement with shortRounds := 0, disagreements := 0 } := by
  simp [State.enterJoining, State.clearCounts]

theorem State.enterJoining_reports : Reports s (s.enterJoining c) (.stateChanged .joining c) :=
  (State.move_reports .joining c s).after (by simp [State.enterJoining, State.clearCounts])

theorem State.enterJoining_link : (s.enterJoining c).link.mode = .windowed ∧
    (s.enterJoining c).link.collisions = (if !s.station.state.transmits then 0 else s.link.collisions) ∧
    (s.enterJoining c).link.owedRoundEnd = s.link.owedRoundEnd := by
  simp only [State.enterJoining, State.clearCounts]
  rw [State.openOccasion_link]
  simp only [State.setAgreement_link]
  rw [State.move_link_of_windowed _ _ _ rfl]
  exact ⟨rfl, by simp [StationState.transmits], rfl⟩

end

/-! ### Integration (R28, R31) -/

/-- The station after an integration as far as the hand-off: in JOINING at rest, its clock set or stepped. -/
structure State.Integrates (cause : Cause) (m : Mark) (b : Beacon) (s t : State) : Prop where
  state : t.station.state = .joining
  settleCount : t.station.settleCount = 0
  listenTimer : t.station.listenTimer = none
  reports : Reports s t (.stateChanged .joining cause)
  discipline : t.discipline = ((s.enterJoining cause).integrateClock (s.rawLag m b) m b).discipline
  mode : t.link.mode = .windowed
  collisions : t.link.collisions = if !s.station.state.transmits then 0 else s.link.collisions

theorem State.integrateTo_integrates {s : State} (settled : s.link.owedRoundEnd = none) (cause : Cause) (m : Mark) (b : Beacon) :
    s.Integrates cause m b (s.integrateTo cause m b) := by
  obtain ⟨mode, collisions, owed⟩ := s.enterJoining_link cause
  obtain ⟨station, sameMode, sameCollisions, silent⟩ := State.integrateClock_keeps (s.rawLag m b) m b (s.enterJoining cause)
  have entered := (s.enterJoining_station cause).trans (by rw [State.move_station])
  rw [entered] at station
  have rests : ((s.enterJoining cause).integrateClock (s.rawLag m b) m b).Rests (s.integrateTo cause m b) :=
    State.settleOwed_rests (by rw [station]) (by rw [station]; exact (by decide : 0 + 1 < 16)) (by rw [station])
      (State.integrateClock_unheard _ _ _ _ (owed.trans settled))
  obtain ⟨k, left⟩ := rests.station
  rw [station] at left
  exact {
    state := by rw [left]
    settleCount := by rw [left]
    listenTimer := by rw [left]
    reports := rests.silent.after (silent.after (s.enterJoining_reports cause))
    discipline := rests.discipline
    mode := rests.mode.trans (sameMode.trans mode)
    collisions := rests.collisions.trans (sameCollisions.trans collisions) }

theorem State.handOn_of_integrates {m : Mark} {b : Beacon} {s : State} {cause : Cause} (h : s.integrates b = some cause) :
    s.handOn m b = ((s.integrateTo cause m b).noteArrival b.slot).handToPeer b.slot (some 0) b := by
  simp only [State.handOn, h]

/-- An integrating beacon handed to its entry: what has been integrated stays, and the entry shows the beacon with raw lag 0
(R28). -/
structure State.HandsIntegrated (cause : Cause) (m : Mark) (b : Beacon) (s t : State) : Prop extends
    State.Integrates cause m b s t where
  rawLag : (t.peers.entries[b.slot]).rawLag = some 0
  tag : (t.peers.entries[b.slot]).tag = some b.tag
  arrival : t.link.arrivals[b.slot] = true
  source : t.source = s.source

theorem State.handOn_integrated {s : State} (settled : s.link.owedRoundEnd = none) (m : Mark) {b : Beacon} {cause : Cause}
    (h : s.integrates b = some cause) : s.HandsIntegrated cause m b (s.handOn m b) := by
  have integrated := State.integrateTo_integrates settled cause m b
  have entry : ((s.handOn m b).peers.entries[b.slot]) = (((s.integrateTo cause m b).peers.entries[b.slot]).handOff
      (s.integrateTo cause m b).config.slot (s.integrateTo cause m b).config.window (s.integrateTo cause m b).peers.hold
      (some 0) b) := by
    rw [State.handOn_of_integrates h]
    simp only [State.handToPeer_peers]
    exact (put_get ..).trans (if_pos rfl)
  refine { toIntegrates := ?_, rawLag := ?_, tag := ?_, arrival := ?_, source := ?_ }
  · rw [State.handOn_of_integrates h]
    have silent : State.SilentOn 1 (s.integrateTo cause m b)
        (((s.integrateTo cause m b).noteArrival b.slot).handToPeer b.slot (some 0) b) :=
      (State.SilentOn.handToPeer _ b.slot (some 0) b (by decide) (by decide)).since rfl
    exact {
      state := by simpa [State.noteArrival] using integrated.state
      settleCount := by simpa [State.noteArrival] using integrated.settleCount
      listenTimer := by simpa [State.noteArrival] using integrated.listenTimer
      reports := silent.after integrated.reports
      discipline := by simpa [State.noteArrival] using integrated.discipline
      mode := by rw [State.handToPeer_link]; exact integrated.mode
      collisions := by rw [State.handToPeer_link]; exact integrated.collisions }
  · rw [entry, PeerEntry.handOff_eq]
  · rw [entry, PeerEntry.handOff_tag]
  · simp only [State.handOn_of_integrates h, State.handToPeer_link]
    exact (put_get ..).trans (if_pos rfl)
  · simp [State.handOn_of_integrates h, State.integrateTo, State.noteArrival, State.integrateClock_source]

section
variable {s : State} {cause : Cause} {m : Mark} {b : Beacon}

/-- The clock set by an integrating beacon (R28). -/
theorem State.Integrates.clock_set {t : State} (h : s.Integrates cause m b t) (unset : s.discipline.clock = none) :
    t.discipline.clock = some (clampUnits (((intendedDeparture b.round b.slot + m.since : Nat) : Int) * 1000000000)) := by
  have unread : (s.enterJoining cause).reading = none := by
    simp [State.reading, State.enterJoining_discipline, unset]
  rw [h.discipline, State.integrateClock_of_invalid _ _ _ _ unread, State.setClock_discipline]
  simp [unitsPerNs]

/-- The clock stepped by an integrating beacon (R28, R87). -/
theorem State.Integrates.clock_stepped {t : State} {c : Nat} (h : s.Integrates cause m b t)
    (clock : s.discipline.clock = some c) : t.discipline.slew = none ∧
      t.discipline.clock = some (if integrationStep (s.rawLag m b) m b (c / 1000000000) = 0 then c
        else clampUnits (c + integrationStep (s.rawLag m b) m b (c / 1000000000) * 1000000000)) := by
  have held : (s.enterJoining cause).discipline.clock = some c := by
    rw [State.enterJoining_discipline, clock]
  have reading : (s.enterJoining cause).reading = some (c / 1000000000) := by
    rw [State.reading, held]; rfl
  rw [h.discipline, State.integrateClock_of_valid _ _ _ _ reading, State.stepClock_discipline _ held]
  exact ⟨rfl, rfl⟩

theorem State.Integrates.rate {t : State} (h : s.Integrates cause m b t) : t.discipline.rate = s.discipline.rate ∧
    t.discipline.joiningStepTaken = false := by
  rw [h.discipline]
  cases clock : s.discipline.clock with
  | none =>
    have unread : (s.enterJoining cause).reading = none := by
      simp [State.reading, State.enterJoining_discipline, clock]
    rw [State.integrateClock_of_invalid _ _ _ _ unread, State.setClock_discipline, State.enterJoining_discipline]
    exact ⟨rfl, rfl⟩
  | some c =>
    have held : (s.enterJoining cause).discipline.clock = some c := by
      rw [State.enterJoining_discipline, clock]
    have reading : (s.enterJoining cause).reading = some (c / unitsPerNs) := by rw [State.reading, held]; rfl
    rw [State.integrateClock_of_valid _ _ _ _ reading, State.stepClock_discipline _ held, State.enterJoining_discipline]
    exact ⟨rfl, rfl⟩

end

theorem intendedDeparture_eq (n : Nat) (slot : Fin 32) :
    intendedDeparture n slot = n * 8000000 + slot.val * 250000 + 20000 := rfl

/-- Settles O24. -/
theorem listenerIntegrates : Obligations.ListenerIntegrates := by
  intro dt bytes since b s u m departure stepped parsed running mode on listen tag slot others settled state
  have goes : exec (.frameReceived dt bytes since) s = .next (u.handOn m b) := by
    rw [exec_frameReceived, State.frameCompletes_open running on mode, State.openFrame_other parsed slot tag,
      if_neg (by rw [PeerTable.not_heldElsewhere others]; exact Bool.false_ne_true)]
  have integrates : u.integrates b = some .integrated := by
    rcases state with h | h | h <;> simp [State.integrates, listen, h]
  have since_eq : m.since = since := State.markAt_since ..
  have departs : intendedDeparture b.round b.slot = departure := intendedDeparture_eq ..
  have lag : u.rawLag m b = m.agreed.map fun a : Nat => (a : Int) + u.stepsSince since - departure := by
    rw [State.rawLag, departs, since_eq]
  clear_value u m departure
  have done := State.handOn_integrated settled m integrates
  obtain ⟨rate, step⟩ := done.toIntegrates.rate
  refine ⟨_, goes, done.state, done.reports, step, done.settleCount, done.listenTimer, done.mode, done.rawLag, done.tag,
    done.arrival, fun unset => ?set, fun c clock => ?valid, rate, done.source⟩
  case set => rw [done.toIntegrates.clock_set unset, departs, since_eq]
  case valid =>
    obtain ⟨slew, moved⟩ := done.toIntegrates.clock_stepped clock
    refine ⟨slew, fun a agreed => ?_, fun unmarked => ?_⟩
    · rw [moved, lag, agreed]; rfl
    · rw [moved, lag, unmarked, Option.map_none, integrationStep, departs, since_eq]

/-- Settles O25. -/
theorem founderYields : Obligations.FounderYields := by
  intro dt bytes since b a s u m lag parsed running on mode agreed window placed tag others first founding settled state
  have goes : exec (.frameReceived dt bytes since) s = .next (u.handOn m b) := by
    rw [exec_frameReceived, State.frameCompletes_windowed running on mode agreed, if_neg window,
      State.windowedFrame_unclashing parsed placed (State.not_clashes tag (by rwa [← placed])),
      if_neg (by simp only [← placed]; rw [first]; exact Bool.false_ne_true)]
  have integrates : u.integrates b = some .yielded := by
    rcases state with h | ⟨h, lower⟩
    · simp [State.integrates, founding, h]
    · simp [State.integrates, founding, h, lower]
  have since_eq : m.since = since := State.markAt_since ..
  have known : u.rawLag m b = some lag := by
    rw [State.rawLag, agreed, Option.map_some, since_eq, intendedDeparture_eq]
    push_cast
    rfl
  clear_value u m lag
  have done := State.handOn_integrated settled m integrates
  obtain ⟨rate, step⟩ := done.toIntegrates.rate
  refine ⟨_, goes, done.state, done.reports, step, fun c clock => ?clock, done.rawLag, done.tag, done.arrival, ?collisions,
    rate, done.source⟩
  case clock =>
    obtain ⟨slew, moved⟩ := done.toIntegrates.clock_stepped clock
    refine ⟨slew, ?_⟩
    rw [moved, known]
    simp only [integrationStep, neg_eq_zero, neg_mul, ← sub_eq_add_neg]
  case collisions => rw [done.collisions, founding]; rfl

end Sys2Proof.Machine
end

section
/-! PROOFS. The round close of one entry (R50, R54 to R60): the streaks and ages of stages 1 and 2, the row of R57 that applies,
and what it leaves. -/

namespace Sys2Proof.Machine

/-! ### Stage 1 and 2 (R50, R55, R56) -/

/-- The entry as stages 1 and 2 of the close leave it. -/
def PeerEntry.aged (p : PeerEntry) : PeerEntry := p.countStreaks.age

section
variable {p : PeerEntry}

/-- The delay estimate is held over this close. -/
def PeerEntry.HoldsDelay (p : PeerEntry) : Prop := p.delay.isSome = true ∧ p.delayAge < 256

theorem PeerEntry.expires_iff : p.expires = true ↔ p.delay.isSome = true ∧ 256 ≤ p.delayAge := by
  simp [PeerEntry.expires]

theorem PeerEntry.aged_eq (p : PeerEntry) : p.aged = { p with
    goodStreak := p.countStreaks.goodStreak, wildStreak := p.countStreaks.wildStreak
    absentStreak := p.countStreaks.absentStreak
    lagAge := p.lagAge.next, delay := if p.expires then none else p.delay
    delayAge := if p.expires then 0 else if p.delay.isSome then p.delayAge + 1 else p.delayAge
    state := if p.expires = true ∧ p.state = .counted then .heard else p.state } := by
  have expires : p.countStreaks.expires = p.expires := by rw [PeerEntry.countStreaks_eq]; rfl
  rw [PeerEntry.aged, PeerEntry.age_eq, expires]
  conv_lhs => rw [PeerEntry.countStreaks_eq]

theorem PeerEntry.aged_delay_isSome : p.aged.delay.isSome = true ↔ p.HoldsDelay := by
  rw [PeerEntry.aged_eq]
  cases expires : p.expires with
  | true =>
    have := PeerEntry.expires_iff.mp expires
    simp [PeerEntry.HoldsDelay, this]
  | false =>
    have : ¬(p.delay.isSome = true ∧ 256 ≤ p.delayAge) := fun h => by simp [PeerEntry.expires_iff.mpr h] at expires
    simp only [Bool.false_eq_true, if_false, PeerEntry.HoldsDelay]
    exact ⟨fun h => ⟨h, by by_contra k; exact this ⟨h, by omega⟩⟩, And.left⟩

theorem PeerEntry.closed_of_vacant (h : p.state.occupied = false) : p.closed = p.observation := by
  simp [PeerEntry.closed, h]

theorem PeerEntry.closed_of_silent (occupied : p.state.occupied = true) (h : p.observation = .none ∨ p.observation = .absent) :
    p.closed = .absent := by
  rcases h with h | h <;> simp [PeerEntry.closed, h, occupied]

theorem PeerEntry.closed_eq_leaving (h : p.closed = .leaving) : p.observation = .leaving := by
  unfold PeerEntry.closed at h
  split at h
  · cases h
  · exact h

theorem PeerEntry.countStreaks_of_vacant (h : p.state.occupied = false) : p.countStreaks = p := by
  simp [PeerEntry.countStreaks, h]

section
variable (occupied : p.state.occupied = true)
include occupied

theorem PeerEntry.countStreaks_of_good (h : p.observation = .good) : p.countStreaks.goodStreak = min 255 (p.goodStreak + 1) ∧
    p.countStreaks.wildStreak = 0 ∧ p.countStreaks.absentStreak = 0 := by
  have closed : p.closed = .good := (PeerEntry.closed_of_heard (by simp [h])).trans h
  simp [PeerEntry.countStreaks, occupied, closed, saturate]

theorem PeerEntry.countStreaks_of_wild (h : p.observation = .wild) : p.countStreaks.goodStreak = 0 ∧
    p.countStreaks.wildStreak = min 255 (p.wildStreak + 1) ∧ p.countStreaks.absentStreak = 0 := by
  have closed : p.closed = .wild := (PeerEntry.closed_of_heard (by simp [h])).trans h
  simp [PeerEntry.countStreaks, occupied, closed, saturate]

theorem PeerEntry.countStreaks_of_silent (h : p.observation = .none ∨ p.observation = .absent) :
    p.countStreaks.goodStreak = 0 ∧ p.countStreaks.wildStreak = 0 ∧
      p.countStreaks.absentStreak = min 255 (p.absentStreak + 1) := by
  have closed : p.closed = .absent := PeerEntry.closed_of_silent occupied h
  simp [PeerEntry.countStreaks, occupied, closed, saturate]

end

/-- A close that counts an absence leaves no good and no wild streak (R55). -/
theorem PeerEntry.countStreaks_of_absent (occupied : p.state.occupied = true) (stays : p.observation ≠ .leaving)
    (h : p.countStreaks.absentStreak ≠ 0) : p.countStreaks.goodStreak = 0 ∧ p.countStreaks.wildStreak = 0 := by
  cases observed : p.observation with
  | good => exact absurd (PeerEntry.countStreaks_of_good occupied observed).2.2 h
  | wild => exact absurd (PeerEntry.countStreaks_of_wild occupied observed).2.2 h
  | leaving => exact absurd observed stays
  | none =>
    obtain ⟨good, wild, -⟩ := PeerEntry.countStreaks_of_silent occupied (.inl observed)
    exact ⟨good, wild⟩
  | absent =>
    obtain ⟨good, wild, -⟩ := PeerEntry.countStreaks_of_silent occupied (.inr observed)
    exact ⟨good, wild⟩

end

/-! ### Stage 3: the row that applies (R57) -/

section
variable {admission : Nat} {closed : Observation} {moved : Bool} {a : PeerEntry}

theorem closeChange_vacant (h : a.state = .vacant) : closeChange admission closed moved a =
    if closed = .good then .becomeHeard else if closed = .absent then .stay else .clear := by
  simp only [closeChange, h]

theorem closeChange_leaving (occupied : a.state.occupied = true) : closeChange admission .leaving moved a = .left := by
  cases h : a.state <;> simp_all [closeChange, EntryState.occupied]

section
variable (stays : closed ≠ .leaving)
include stays

theorem closeChange_lost (occupied : a.state.occupied = true) (absent : 16 ≤ a.absentStreak) :
    closeChange admission closed moved a = .lost := by
  cases h : a.state <;> simp_all [closeChange, EntryState.occupied]

variable (here : a.absentStreak < 16)
include here

theorem closeChange_heard (h : a.state = .heard) : closeChange admission closed moved a =
    if moved then .stay else if a.delay.isSome ∧ admission ≤ a.goodStreak then .admitted else .stay := by
  simp only [closeChange, h, if_neg stays, if_neg here.not_ge]

theorem closeChange_counted (h : a.state = .counted) : closeChange admission closed moved a =
    if 4 ≤ a.absentStreak then .demoted else if 3 ≤ a.wildStreak then .excluded else .stay := by
  simp only [closeChange, h, if_neg stays, if_neg here.not_ge]

theorem closeChange_excluded (h : a.state = .excluded) : closeChange admission closed moved a =
    if 8 ≤ a.goodStreak then (if a.delay.isSome then .readmitted else .unexcluded) else .stay := by
  simp only [closeChange, h, if_neg stays, if_neg here.not_ge]

end

/-- Where a known entry stays known, the row changes its state alone, but that a demoted one counts anew (R60). -/
theorem closeChange_applyTo (stays : closed ≠ .leaving) (here : a.absentStreak < 16) (occupied : a.state.occupied = true)
    (absent : a.absentStreak ≠ 0 → a.goodStreak = 0 ∧ a.wildStreak = 0) :
    (closeChange admission closed moved a).applyTo a =
      { a with state := ((closeChange admission closed moved a).applyTo a).state } := by
  cases h : a.state with
  | vacant | self => rw [h] at occupied; cases occupied
  | heard =>
    rw [closeChange_heard stays here h]
    (repeat' split) <;> rfl
  | excluded =>
    rw [closeChange_excluded stays here h]
    (repeat' split) <;> rfl
  | counted =>
    rw [closeChange_counted stays here h]
    split
    next long =>
      obtain ⟨good, wild⟩ := absent (by omega)
      simp only [CloseChange.applyTo, good, wild]
    next => split <;> rfl

/-- Only rows that empty the entry change what it was told. -/
theorem CloseChange.applyTo_keeps {c : CloseChange} (h : (c.applyTo a).state ≠ .vacant) : c.applyTo a =
    { a with
      state := (c.applyTo a).state, goodStreak := (c.applyTo a).goodStreak, wildStreak := (c.applyTo a).wildStreak
      absentStreak := (c.applyTo a).absentStreak } := by
  cases c with
  | clear | left | lost => exact absurd rfl h
  | _ => rfl

end

/-! ### The close of an entry -/

section
variable {p : PeerEntry} {admission : Nat}

/-- The change of state of the close, read from the entry as stages 1 and 2 leave it. -/
theorem PeerEntry.closing_eq (admission : Nat) (p : PeerEntry) :
    p.closing admission = closeChange admission p.closed (p.expires && decide (p.state = .counted)) p.aged := rfl

theorem PeerEntry.close_eq (other : p.state ≠ .self) :
    p.close admission = ((p.closing admission).applyTo p.aged).openRound p.closed p.deviation :=
  PeerEntry.close_of_other other

theorem PeerEntry.aged_state_of_not_counted (h : p.state ≠ .counted) : p.aged.state = p.state := by
  rw [PeerEntry.aged_eq]
  exact if_neg fun k => h k.2

theorem PeerEntry.aged_occupied (h : p.state.occupied = true) : p.aged.state.occupied = true := by
  rw [PeerEntry.aged_eq]
  dsimp only
  split
  · rfl
  · exact h

theorem PeerEntry.closed_ne_leaving (h : p.observation ≠ .leaving) : p.closed ≠ .leaving :=
  fun k => h (PeerEntry.closed_eq_leaving k)

/-- The close of a known entry that stays known: the state by the row, the rest as stages 1 and 2 leave it. -/
theorem PeerEntry.close_of_known (occupied : p.state.occupied = true) (stays : p.observation ≠ .leaving)
    (here : p.countStreaks.absentStreak < 16) : p.close admission =
      ({ p.aged with state := ((p.closing admission).applyTo p.aged).state }).openRound p.closed p.deviation := by
  have other : p.state ≠ .self := fun h => by rw [h] at occupied; cases occupied
  have streaks := p.aged_eq
  rw [PeerEntry.close_eq other, PeerEntry.closing_eq, closeChange_applyTo (PeerEntry.closed_ne_leaving stays)
    (by rw [streaks]; exact here) (PeerEntry.aged_occupied occupied)
    (by rw [streaks]; exact PeerEntry.countStreaks_of_absent occupied stays)]

theorem PeerEntry.close_of_leaving (occupied : p.state.occupied = true) (leaves : p.observation = .leaving) :
    p.closing admission = .left ∧ p.close admission = { PeerEntry.empty with
      resultObservation := .leaving, resultDeviation := p.deviation } := by
  have other : p.state ≠ .self := fun h => by rw [h] at occupied; cases occupied
  have closed : p.closed = .leaving := (PeerEntry.closed_of_heard (by simp [leaves])).trans leaves
  have left : p.closing admission = .left := by
    rw [PeerEntry.closing_eq, closed, closeChange_leaving (PeerEntry.aged_occupied occupied)]
  rw [PeerEntry.close_eq other, left, closed]
  exact ⟨rfl, rfl⟩

theorem PeerEntry.close_of_lost (occupied : p.state.occupied = true) (silent : p.observation = .none ∨ p.observation = .absent)
    (long : 15 ≤ p.absentStreak) : p.closing admission = .lost ∧ p.close admission = { PeerEntry.empty with
      resultObservation := .absent, resultDeviation := p.deviation } := by
  have other : p.state ≠ .self := fun h => by rw [h] at occupied; cases occupied
  have closed : p.closed = .absent := PeerEntry.closed_of_silent occupied silent
  have absent : p.aged.absentStreak = min 255 (p.absentStreak + 1) := by
    rw [PeerEntry.aged_eq]
    exact (PeerEntry.countStreaks_of_silent occupied silent).2.2
  have lost : p.closing admission = .lost := by
    rw [PeerEntry.closing_eq, closed, closeChange_lost (by decide) (PeerEntry.aged_occupied occupied) (by omega)]
  rw [PeerEntry.close_eq other, lost, closed]
  exact ⟨rfl, rfl⟩

/-- The row of a HEARD entry that stays known (R58). -/
theorem PeerEntry.closing_of_heard (h : p.state = .heard) (stays : p.observation ≠ .leaving)
    (here : p.countStreaks.absentStreak < 16) : (p.HoldsDelay ∧ admission ≤ p.countStreaks.goodStreak →
      p.closing admission = .admitted) ∧
    (¬(p.HoldsDelay ∧ admission ≤ p.countStreaks.goodStreak) → p.closing admission = .stay) := by
  have state : p.aged.state = .heard := (PeerEntry.aged_state_of_not_counted (by rw [h]; decide)).trans h
  have good : p.aged.goodStreak = p.countStreaks.goodStreak := by rw [PeerEntry.aged_eq]
  have row := closeChange_heard (admission := admission) (moved := p.expires && decide (p.state = .counted))
    (PeerEntry.closed_ne_leaving stays) (by rw [PeerEntry.aged_eq]; exact here) state
  rw [← PeerEntry.closing_eq] at row
  simp only [h, good, reduceCtorEq, decide_false, Bool.and_false, Bool.false_eq_true, if_false] at row
  exact ⟨fun k => row.trans (if_pos ⟨PeerEntry.aged_delay_isSome.mpr k.1, k.2⟩),
    fun k => row.trans (if_neg fun ⟨holds, enough⟩ => k ⟨PeerEntry.aged_delay_isSome.mp holds, enough⟩)⟩

/-- The row of a COUNTED entry that stays known (R56, R59, R60). -/
theorem PeerEntry.closing_of_counted (h : p.state = .counted) (stays : p.observation ≠ .leaving)
    (here : p.countStreaks.absentStreak < 16) :
    (p.expires = true → p.closing admission = .stay ∧ p.aged.state = .heard) ∧
    (p.expires = false → p.aged.state = .counted ∧ p.closing admission =
      if 4 ≤ p.countStreaks.absentStreak then .demoted else if 3 ≤ p.countStreaks.wildStreak then .excluded else .stay) := by
  have closed := PeerEntry.closed_ne_leaving stays
  have fewer : p.aged.absentStreak < 16 := by rw [PeerEntry.aged_eq]; exact here
  refine ⟨fun expires => ?_, fun holds => ?_⟩
  · have state : p.aged.state = .heard := by rw [PeerEntry.aged_eq]; exact if_pos ⟨expires, h⟩
    refine ⟨?_, state⟩
    rw [PeerEntry.closing_eq, closeChange_heard closed fewer state, expires, h]
    rfl
  · have state : p.aged.state = .counted := by
      rw [PeerEntry.aged_eq]
      exact (if_neg (by simp [holds])).trans h
    refine ⟨state, ?_⟩
    rw [PeerEntry.closing_eq, closeChange_counted closed fewer state, PeerEntry.aged_eq]

/-- The row of an EXCLUDED entry that stays known (R59). -/
theorem PeerEntry.closing_of_excluded (h : p.state = .excluded) (stays : p.observation ≠ .leaving)
    (here : p.countStreaks.absentStreak < 16) :
    (p.countStreaks.goodStreak < 8 → p.closing admission = .stay) ∧
    (8 ≤ p.countStreaks.goodStreak → (p.HoldsDelay → p.closing admission = .readmitted) ∧
      (¬p.HoldsDelay → p.closing admission = .unexcluded)) := by
  have state : p.aged.state = .excluded := (PeerEntry.aged_state_of_not_counted (by rw [h]; decide)).trans h
  have good : p.aged.goodStreak = p.countStreaks.goodStreak := by rw [PeerEntry.aged_eq]
  have row := closeChange_excluded (admission := admission) (moved := p.expires && decide (p.state = .counted))
    (PeerEntry.closed_ne_leaving stays) (by rw [PeerEntry.aged_eq]; exact here) state
  rw [← PeerEntry.closing_eq] at row
  rw [good] at row
  exact ⟨fun few => row.trans (if_neg few.not_ge),
    fun many => ⟨fun holds => row.trans ((if_pos many).trans (if_pos (PeerEntry.aged_delay_isSome.mpr holds))),
      fun lapsed => row.trans ((if_pos many).trans (if_neg fun k => lapsed (PeerEntry.aged_delay_isSome.mp k)))⟩⟩

end

end Sys2Proof.Machine
end

section
/-! PROOFS. The round close of the Peer Table (R50, R54 to R60), entry by entry. -/

namespace Sys2Proof.Machine

section
variable {p : PeerEntry} {admission : Nat}

/-- An entry that the close leaves known, or makes known, keeps what it was told; its raw lag and delay estimate age (R50,
R56). -/
theorem PeerEntry.close_keeps (other : p.state ≠ .self) (known : (p.close admission).state ≠ .vacant) :
    p.close admission = ({ p.aged with
      state := (p.close admission).state, goodStreak := (p.close admission).goodStreak
      wildStreak := (p.close admission).wildStreak
      absentStreak := (p.close admission).absentStreak }).openRound p.closed p.deviation := by
  rw [PeerEntry.close_eq other] at known ⊢
  conv_lhs => rw [CloseChange.applyTo_keeps known]
  rfl

/-- A VACANT entry becomes HEARD by a good beacon, and is emptied by any other beacon (R57, R60). -/
theorem PeerEntry.close_of_vacant (vacant : p.state = .vacant) :
    (p.observation = .good → (p.close admission).state = .heard ∧ (p.close admission).goodStreak = 1 ∧
      (p.close admission).wildStreak = 0 ∧ (p.close admission).absentStreak = 0) ∧
    (p.observation ≠ .good → (p.close admission).state = .vacant) ∧
    (p.observation ≠ .good → p.observation ≠ .absent → p.close admission = { PeerEntry.empty with
      resultObservation := p.observation, resultDeviation := p.deviation }) := by
  have other : p.state ≠ .self := by rw [vacant]; decide
  have closed : p.closed = p.observation := PeerEntry.closed_of_vacant (by rw [vacant]; rfl)
  have state : p.aged.state = .vacant := (PeerEntry.aged_state_of_not_counted (by rw [vacant]; decide)).trans vacant
  rw [PeerEntry.close_eq other, PeerEntry.closing_eq, closed, closeChange_vacant state]
  refine ⟨fun good => ?_, fun bad => ?_, fun bad heard => ?_⟩
  · rw [if_pos good]
    exact ⟨rfl, rfl, rfl, rfl⟩
  · rw [if_neg bad]
    split
    · exact state
    · rfl
  · rw [if_neg bad, if_neg heard]
    rfl

/-- The streaks of a known entry that stays known are those of stage 1. -/
theorem PeerEntry.close_streaks (occupied : p.state.occupied = true) (stays : p.observation ≠ .leaving)
    (here : p.countStreaks.absentStreak < 16) : (p.close admission).goodStreak = p.countStreaks.goodStreak ∧
      (p.close admission).wildStreak = p.countStreaks.wildStreak ∧
      (p.close admission).absentStreak = p.countStreaks.absentStreak := by
  rw [PeerEntry.close_of_known occupied stays here, PeerEntry.aged_eq]
  exact ⟨rfl, rfl, rfl⟩

theorem PeerEntry.close_state (occupied : p.state.occupied = true) (stays : p.observation ≠ .leaving)
    (here : p.countStreaks.absentStreak < 16) :
    (p.close admission).state = ((p.closing admission).applyTo p.aged).state := by
  rw [PeerEntry.close_of_known occupied stays here]
  rfl

/-- Below 15 absences in a row, or with a beacon, an entry is not lost. -/
theorem PeerEntry.countStreaks_few (occupied : p.state.occupied = true) (h : p.observation = .good ∨ p.observation = .wild ∨
    (p.observation ≠ .leaving ∧ p.absentStreak < 15)) :
    p.observation ≠ .leaving ∧ p.countStreaks.absentStreak < 16 := by
  cases observed : p.observation with
  | good => exact ⟨by decide, by rw [(PeerEntry.countStreaks_of_good occupied observed).2.2]; decide⟩
  | wild => exact ⟨by decide, by rw [(PeerEntry.countStreaks_of_wild occupied observed).2.2]; decide⟩
  | leaving => simp [observed] at h
  | none | absent =>
    have few : p.absentStreak < 15 := by simpa [observed] using h
    refine ⟨by decide, ?_⟩
    rw [(PeerEntry.countStreaks_of_silent occupied (by simp [observed])).2.2]
    omega

end

/-- Settles O34: the close is read from the entry as stages 1 and 2 leave it, by the row of R57 that applies. -/
theorem roundCloseOfEntries : Obligations.RoundCloseOfEntries := by
  refine ⟨fun s => ⟨s.closeTable_frame, s.closeTable_hold, s.closeTable_entry⟩, ?_⟩
  intro admission p q held expired
  have expires : p.expires = true ↔ expired := PeerEntry.expires_iff
  refine ⟨PeerEntry.close_of_self, fun other => ?_⟩
  have close : q = _ := PeerEntry.close_eq other
  refine ⟨congrArg (·.observation) close, congrArg (·.deviation) close, congrArg (·.resultDeviation) close, ?absent, ?result,
    fun known => ?keeps, PeerEntry.close_of_vacant, fun known => ?streaks, fun stays => ?states⟩
  case absent =>
    intro known silent
    exact (congrArg (·.resultObservation) close).trans
      (PeerEntry.closed_of_silent (p.state.occupied_iff.mpr known) (.inl silent))
  case result =>
    intro heard
    refine (congrArg (·.resultObservation) close).trans ?_
    rcases heard with vacant | heard
    · exact PeerEntry.closed_of_vacant (by rw [vacant]; rfl)
    · exact PeerEntry.closed_of_heard heard
  case keeps =>
    have kept : q = _ := PeerEntry.close_keeps other known
    rw [PeerEntry.aged_eq] at kept
    have delay : q.delay = if p.expires then none else p.delay := congrArg (·.delay) kept
    have age : q.delayAge = if p.expires then 0 else if p.delay.isSome then p.delayAge + 1 else p.delayAge :=
      congrArg (·.delayAge) kept
    have lag : q.lagAge = p.lagAge.next := congrArg (·.lagAge) kept
    refine ⟨fun fresh => by rw [lag, fresh]; rfl, fun older => ?_, congrArg (·.rawLag) kept, congrArg (·.tag) kept,
      congrArg (·.peerState) kept, congrArg (·.counted) kept, congrArg (·.anchored) kept, congrArg (·.anchorOffset) kept,
      congrArg (·.labelOffset) kept, congrArg (·.notice) kept, fun holds => ?_, fun lapses => ?_, fun unestimated => ?_⟩
    · rw [lag]
      cases age : p.lagAge with
      | zero => exact absurd age older
      | one | stale => rfl
    · have stays : ¬p.expires = true := fun k => absurd (expires.mp k).2 holds.2.not_ge
      rw [delay, age, if_neg stays, if_neg stays, if_pos holds.1]
      exact ⟨rfl, rfl⟩
    · rw [delay, age, if_pos (expires.mpr lapses), if_pos (expires.mpr lapses)]
      exact ⟨rfl, rfl⟩
    · have stays : ¬p.expires = true := fun k => by simpa [unestimated] using (expires.mp k).1
      rw [delay, age, if_neg stays, if_neg stays, unestimated]
      exact ⟨rfl, rfl⟩
  case streaks =>
    have occupied : p.state.occupied = true := p.state.occupied_iff.mpr known
    refine ⟨fun leaves => (PeerEntry.close_of_leaving occupied leaves).2, fun silent => ⟨fun long => ?_, fun few => ?_⟩,
      fun good => ?_, fun wild => ?_⟩
    · exact (PeerEntry.close_of_lost occupied silent long).2
    · obtain ⟨stays, here⟩ := PeerEntry.countStreaks_few occupied
        (.inr (.inr ⟨by rcases silent with h | h <;> rw [h] <;> decide, few⟩))
      obtain ⟨goodStreak, wildStreak, absentStreak⟩ := PeerEntry.close_streaks (admission := admission) occupied stays here
      obtain ⟨good, wild, absent⟩ := PeerEntry.countStreaks_of_silent occupied silent
      exact ⟨by rw [absentStreak, absent]; omega, goodStreak.trans good, wildStreak.trans wild⟩
    · obtain ⟨stays, here⟩ := PeerEntry.countStreaks_few occupied (.inl good)
      obtain ⟨goodStreak, wildStreak, absentStreak⟩ := PeerEntry.close_streaks (admission := admission) occupied stays here
      obtain ⟨good, wild, absent⟩ := PeerEntry.countStreaks_of_good occupied good
      exact ⟨goodStreak.trans good, wildStreak.trans wild, absentStreak.trans absent⟩
    · obtain ⟨stays, here⟩ := PeerEntry.countStreaks_few occupied (.inr (.inl wild))
      obtain ⟨goodStreak, wildStreak, absentStreak⟩ := PeerEntry.close_streaks (admission := admission) occupied stays here
      obtain ⟨good, wild, absent⟩ := PeerEntry.countStreaks_of_wild occupied wild
      exact ⟨wildStreak.trans wild, goodStreak.trans good, absentStreak.trans absent⟩
  case states =>
    refine ⟨fun heard => ?_, fun counted => ?_, fun excluded => ?_⟩
    · have occupied : p.state.occupied = true := by rw [heard]; rfl
      obtain ⟨stays, here⟩ := PeerEntry.countStreaks_few occupied stays
      obtain ⟨good, -, -⟩ : q.goodStreak = _ ∧ _ := PeerEntry.close_streaks occupied stays here
      have state : q.state = _ := PeerEntry.close_state occupied stays here
      obtain ⟨admitted, stayed⟩ := PeerEntry.closing_of_heard (admission := admission) heard stays here
      refine ⟨fun holds enough => ?_, fun lacks => ?_⟩
      · rw [state, admitted ⟨holds, good ▸ enough⟩]
        rfl
      · rw [state, stayed fun ⟨holds, enough⟩ => lacks.elim (fun k => k holds) fun k => k.not_ge (good ▸ enough)]
        exact (PeerEntry.aged_state_of_not_counted (by rw [heard]; decide)).trans heard
    · have occupied : p.state.occupied = true := by rw [counted]; rfl
      obtain ⟨stays, here⟩ := PeerEntry.countStreaks_few occupied stays
      obtain ⟨-, wild, absent⟩ : _ ∧ q.wildStreak = _ ∧ q.absentStreak = _ := PeerEntry.close_streaks occupied stays here
      have state : q.state = _ := PeerEntry.close_state occupied stays here
      obtain ⟨lapsed, held⟩ := PeerEntry.closing_of_counted (admission := admission) counted stays here
      refine ⟨fun heard => ?_, fun holds few => ?_⟩
      · cases lapses : p.expires with
        | true =>
          obtain ⟨row, left⟩ := lapsed lapses
          rw [state, row]
          exact left
        | false =>
          have long : 4 ≤ q.absentStreak := heard.resolve_left fun k => by simp [expires.mpr k] at lapses
          rw [state, (held lapses).2, if_pos (by rwa [← absent])]
          rfl
      · obtain ⟨left, row⟩ := held (Bool.eq_false_iff.mpr fun k => holds (expires.mp k))
        rw [if_neg (by rw [← absent]; exact few.not_ge)] at row
        refine ⟨fun many => ?_, fun few => ?_⟩
        · rw [state, row, if_pos (by rwa [← wild])]
          rfl
        · rw [state, row, if_neg (by rw [← wild]; exact few.not_ge)]
          exact left
    · have occupied : p.state.occupied = true := by rw [excluded]; rfl
      obtain ⟨stays, here⟩ := PeerEntry.countStreaks_few occupied stays
      obtain ⟨good, -, -⟩ : q.goodStreak = _ ∧ _ := PeerEntry.close_streaks occupied stays here
      have state : q.state = _ := PeerEntry.close_state occupied stays here
      obtain ⟨stayed, left⟩ := PeerEntry.closing_of_excluded (admission := admission) excluded stays here
      refine ⟨fun few => ?_, fun many => ⟨fun holds => ?_, fun lapses => ?_⟩⟩
      · rw [state, stayed (good ▸ few)]
        exact (PeerEntry.aged_state_of_not_counted (by rw [excluded]; decide)).trans excluded
      · rw [state, (left (good ▸ many)).1 holds]
        rfl
      · rw [state, (left (good ▸ many)).2 lapses]
        rfl

end Sys2Proof.Machine
end

section
/-! PROOFS. The rows that name what a round end comes to for one entry (R56 to R60, R64; log 3), and the report that the close
makes of it. -/

namespace Sys2Proof.Machine

/-! ### What the close reports (R57, R64) -/

/-- The slots in order, split at one of them. -/
theorem finRange_split (slot : Fin 32) : ∃ earlier later : List (Fin 32),
    List.finRange 32 = earlier ++ slot :: later ∧ ∀ i ∈ later, slot < i := by
  obtain ⟨earlier, later, split⟩ := List.append_of_mem (List.mem_finRange slot)
  have ordered : (List.finRange 32).Pairwise (· < ·) := List.pairwise_lt_finRange 32
  rw [split] at ordered
  exact ⟨earlier, later, split, (List.pairwise_cons.mp (List.pairwise_append.mp ordered).2.1).1⟩

/-- The close reports what an entry comes to unless a later entry comes to the same. -/
theorem State.closeTable_reports {s : State} {slot : Fin 32} {n : Notice}
    (said : (s.peers.entries[slot]).closeNotices s.config.admission slot = [n])
    (last : ∀ i : Fin 32, slot < i → ∀ m ∈ (s.peers.entries[i]).closeNotices s.config.admission i, n.kind ≠ m.kind) :
    Reports s s.closeTable n := by
  obtain ⟨earlier, later, split, behind⟩ := finRange_split slot
  unfold State.closeTable
  simp only [split, List.flatMap_append, List.flatMap_cons, said, List.singleton_append]
  refine (Reports.raiseAll _ n (fun m mem => ?_) _).before rfl
  obtain ⟨i, mem, said⟩ := List.mem_flatMap.mp mem
  exact last i (behind i mem) m said

theorem State.closed_reports {s : State} (index : Option Nat) (slot : Fin 32) {n : Notice}
    (said : (s.peers.entries[slot]).closeNotices s.config.admission slot = [n])
    (last : ∀ i : Fin 32, slot < i → ∀ m ∈ (s.peers.entries[i]).closeNotices s.config.admission i, n.kind ≠ m.kind) :
    Reports s (s.signal index).closeTable n :=
  (State.closeTable_reports (s := s.signal index) (by simpa using said) (by simpa using last)).before (by simp)

section
variable {c : CloseChange} {slot : Fin 32} {tag : Nat} {m : Notice} (said : m ∈ c.notices slot tag)
include said

theorem CloseChange.eq_of_kind_admitted (kind : 9 = m.kind) : c = .admitted ∨ c = .readmitted := by
  cases c <;> simp_all [CloseChange.notices, Notice.kind]

theorem CloseChange.eq_of_kind_excluded (kind : 10 = m.kind) : c = .excluded := by
  cases c <;> simp_all [CloseChange.notices, Notice.kind]

theorem CloseChange.eq_of_kind_lost (kind : 11 = m.kind) : c = .lost := by
  cases c <;> simp_all [CloseChange.notices, Notice.kind]

theorem CloseChange.eq_of_kind_left (kind : 12 = m.kind) : c = .left := by
  cases c <;> simp_all [CloseChange.notices, Notice.kind]

end

section
variable {s : State} {slot : Fin 32}

theorem State.admits_iff : s.admits slot = true ↔ s.closingOf slot = .admitted ∨ s.closingOf slot = .readmitted := by
  simp [State.admits]

theorem State.excludes_iff : s.excludes slot = true ↔ s.closingOf slot = .excluded := by simp [State.excludes]

theorem State.loses_iff : s.loses slot = true ↔ s.closingOf slot = .lost := by simp [State.loses]

theorem State.demotes_iff : s.demotes slot = true ↔ s.closingOf slot = .demoted := by simp [State.demotes]

/-- An entry that leaves has sent a beacon that says so. -/
theorem PeerEntry.observation_of_left {p : PeerEntry} {admission : Nat} (h : p.closing admission = .left) :
    p.observation = .leaving := by
  refine PeerEntry.closed_eq_leaving (by_contra fun other => ?_)
  rw [PeerEntry.closing_eq] at h
  unfold closeChange at h
  cases state : p.aged.state <;> simp only [state, if_neg other, reduceCtorEq] at h <;> split_ifs at h

variable {index : Option Nat} {n : Nat} (tag : (s.peers.entries[slot]).tag = some n)
include tag

theorem State.closed_reports_admitted (admits : s.admits slot = true)
    (last : ∀ i : Fin 32, slot < i → s.admits i = false) :
    Reports s (s.signal index).closeTable (.peerAdmitted slot n) := by
  refine State.closed_reports index slot ?_ fun i behind m mem kind => ?_
  · rw [PeerEntry.closeNotices, tag]
    rcases State.admits_iff.mp admits with h | h
    all_goals rw [show (s.peers.entries[slot]).closing _ = _ from h]; rfl
  · have := State.admits_iff.mpr (CloseChange.eq_of_kind_admitted mem kind)
    exact Bool.false_ne_true ((last i behind).symm.trans this)

theorem State.closed_reports_excluded (excludes : s.excludes slot = true)
    (last : ∀ i : Fin 32, slot < i → s.excludes i = false) :
    Reports s (s.signal index).closeTable (.peerExcluded slot n) := by
  refine State.closed_reports index slot ?_ fun i behind m mem kind => ?_
  · rw [PeerEntry.closeNotices, tag, show (s.peers.entries[slot]).closing _ = _ from State.excludes_iff.mp excludes]
    rfl
  · have := State.excludes_iff.mpr (CloseChange.eq_of_kind_excluded mem kind)
    exact Bool.false_ne_true ((last i behind).symm.trans this)

theorem State.closed_reports_lost (loses : s.loses slot = true) (last : ∀ i : Fin 32, slot < i → s.loses i = false) :
    Reports s (s.signal index).closeTable (.peerLost slot n) := by
  refine State.closed_reports index slot ?_ fun i behind m mem kind => ?_
  · rw [PeerEntry.closeNotices, tag, show (s.peers.entries[slot]).closing _ = _ from State.loses_iff.mp loses]
    rfl
  · have := State.loses_iff.mpr (CloseChange.eq_of_kind_lost mem kind)
    exact Bool.false_ne_true ((last i behind).symm.trans this)

theorem State.closed_reports_left (leaves : s.closingOf slot = .left)
    (last : ∀ i : Fin 32, slot < i → (s.peers.entries[i]).observation ≠ .leaving) :
    Reports s (s.signal index).closeTable (.peerLeft slot n) := by
  refine State.closed_reports index slot ?_ fun i behind m mem kind => ?_
  · rw [PeerEntry.closeNotices, tag, show (s.peers.entries[slot]).closing _ = _ from leaves]
    rfl
  · exact last i behind (PeerEntry.observation_of_left (CloseChange.eq_of_kind_left mem kind))

end

/-! ### The rows that name an outcome (log 3) -/

section
variable (dt : Elapsed) (slot : Fin 32) (s : State)

theorem exec_peerAdmitted : exec (.peerAdmitted dt slot) s =
    .next ((s.elapse dt).roundEndTo fun _ t => t.admits slot) := rfl

theorem exec_peerExcluded : exec (.peerExcluded dt slot) s =
    .next ((s.elapse dt).roundEndTo fun _ t => t.excludes slot) := rfl

theorem exec_peerDemoted : exec (.peerDemoted dt slot) s =
    .next ((s.elapse dt).roundEndTo fun _ t => t.demotes slot) := rfl

theorem exec_peerLost : exec (.peerLost dt slot) s = .next ((s.elapse dt).roundEndTo fun _ t => t.loses slot) := rfl

theorem exec_delayEstimateExpired : exec (.delayEstimateExpired dt slot) s =
    .next ((s.elapse dt).roundEndTo fun _ t => t.expires slot) := rfl

end

/-- An entry that stays known keeps an estimate that does not expire (R56). -/
theorem PeerEntry.close_delay {p : PeerEntry} {admission : Nat} (other : p.state ≠ .self)
    (known : (p.close admission).state ≠ .vacant) (stays : p.expires = false) : (p.close admission).delay = p.delay := by
  have kept := PeerEntry.close_keeps other known
  rw [PeerEntry.aged_eq] at kept
  have delay : (p.close admission).delay = if p.expires then none else p.delay := congrArg (·.delay) kept
  rw [delay, stays]
  rfl

/-- An estimate that expires is gone after the close, whatever becomes of the entry (R56). -/
theorem PeerEntry.close_expired {p : PeerEntry} {admission : Nat} (other : p.state ≠ .self) (expires : p.expires = true) :
    (p.close admission).delay = none ∧ (p.close admission).delayAge = 0 := by
  have aged : p.aged.delay = none ∧ p.aged.delayAge = 0 := by
    rw [PeerEntry.aged_eq, expires]
    exact ⟨rfl, rfl⟩
  rw [PeerEntry.close_eq other]
  cases p.closing admission with
  | clear | left | lost => exact ⟨rfl, rfl⟩
  | _ => exact aged

theorem PeerEntry.expires_eq_false {p : PeerEntry} (young : p.delayAge < 256) : p.expires = false :=
  Bool.eq_false_iff.mpr fun k => (PeerEntry.expires_iff.mp k).2.not_gt young

/-- Settles O35: the round end that is due is taken under each name, as the close of the entry has its row. -/
theorem peerChangesReported : Obligations.PeerChangesReported := by
  intro dt s index slot n u p adm c q due tag
  have named {outcome : Option Nat → State → Bool} (h : outcome index u = true) : u.roundEndTo outcome = u.roundEnd index :=
    State.roundEndTo_of_named due h
  have entry : q = p.close adm := by
    rw [show q = (u.signal index).closeTable.peers.entries[slot] from rfl, State.closeTable_entry]
    simp only [State.signal_peers, State.signal_config]
    rfl
  have closing : u.closingOf slot = p.closing adm := rfl
  refine ⟨fun heard good held young short enough => ?admitted, fun excluded good held young many => ?readmitted,
    fun counted wild young many => ?excluded, fun counted silent young long few => ?demoted,
    fun known silent long => ?lost, fun known leaves => ?left, fun other held old => ?expired⟩
  case admitted =>
    have occupied : p.state.occupied = true := by rw [heard]; rfl
    obtain ⟨stays, here⟩ := PeerEntry.countStreaks_few occupied (.inl good)
    have streak := (PeerEntry.countStreaks_of_good occupied good).1
    have row : p.closing adm = .admitted := (PeerEntry.closing_of_heard heard stays here).1
      ⟨⟨Option.isSome_iff_exists.mpr held, young⟩, by omega⟩
    have admits : u.admits slot = true := State.admits_iff.mpr (.inl (closing.trans row))
    have state : q.state = .counted := by rw [entry, PeerEntry.close_state occupied stays here, row]; rfl
    refine ⟨?_, state, ?_, State.closed_reports_admitted tag admits⟩
    · rw [exec_peerAdmitted, show (s.elapse dt).roundEndTo _ = _ from named admits]
    · rw [entry] at state ⊢
      exact PeerEntry.close_delay (by rw [heard]; decide) (by rw [state]; decide) (PeerEntry.expires_eq_false young)
  case readmitted =>
    have occupied : p.state.occupied = true := by rw [excluded]; rfl
    obtain ⟨stays, here⟩ := PeerEntry.countStreaks_few occupied (.inl good)
    have streak := (PeerEntry.countStreaks_of_good occupied good).1
    have row : p.closing adm = .readmitted := ((PeerEntry.closing_of_excluded excluded stays here).2 (by omega)).1
      ⟨Option.isSome_iff_exists.mpr held, young⟩
    have admits : u.admits slot = true := State.admits_iff.mpr (.inr (closing.trans row))
    refine ⟨?_, ?_, State.closed_reports_admitted tag admits⟩
    · rw [exec_peerAdmitted, show (s.elapse dt).roundEndTo _ = _ from named admits]
    · rw [entry, PeerEntry.close_state occupied stays here, row]; rfl
  case excluded =>
    have occupied : p.state.occupied = true := by rw [counted]; rfl
    obtain ⟨stays, here⟩ := PeerEntry.countStreaks_few occupied (.inr (.inl wild))
    obtain ⟨-, streak, present⟩ := PeerEntry.countStreaks_of_wild occupied wild
    have row : p.closing adm = .excluded := by
      rw [((PeerEntry.closing_of_counted counted stays here).2 (PeerEntry.expires_eq_false young)).2, if_neg (by omega),
        if_pos (by omega)]
    have excludes : u.excludes slot = true := State.excludes_iff.mpr (closing.trans row)
    refine ⟨?_, ?_, State.closed_reports_excluded tag excludes⟩
    · rw [exec_peerExcluded, show (s.elapse dt).roundEndTo _ = _ from named excludes]
    · rw [entry, PeerEntry.close_state occupied stays here, row]; rfl
  case demoted =>
    have occupied : p.state.occupied = true := by rw [counted]; rfl
    obtain ⟨stays, here⟩ := PeerEntry.countStreaks_few occupied (.inr (.inr ⟨by rw [silent]; decide, few⟩))
    obtain ⟨good, -, absent⟩ := PeerEntry.countStreaks_of_silent occupied (.inl silent)
    obtain ⟨goodStreak, -, absentStreak⟩ := PeerEntry.close_streaks (admission := adm) occupied stays here
    have row : p.closing adm = .demoted := by
      rw [((PeerEntry.closing_of_counted counted stays here).2 (PeerEntry.expires_eq_false young)).2, if_pos (by omega)]
    have demotes : u.demotes slot = true := State.demotes_iff.mpr (closing.trans row)
    have state : (p.close adm).state = .heard := by rw [PeerEntry.close_state occupied stays here, row]; rfl
    rw [exec_peerDemoted, show (s.elapse dt).roundEndTo _ = _ from named demotes, entry]
    exact ⟨rfl, state, goodStreak.trans good, by omega, PeerEntry.close_delay (by rw [counted]; decide)
      (by rw [state]; decide) (PeerEntry.expires_eq_false young)⟩
  case lost =>
    obtain ⟨row, empty⟩ := PeerEntry.close_of_lost (admission := adm) (p.state.occupied_iff.mpr known) (.inl silent) long
    have loses : u.loses slot = true := State.loses_iff.mpr (closing.trans row)
    rw [exec_peerLost, show (s.elapse dt).roundEndTo _ = _ from named loses, entry, empty]
    exact ⟨rfl, rfl, rfl, rfl, State.closed_reports_lost tag loses⟩
  case left =>
    obtain ⟨row, empty⟩ := PeerEntry.close_of_leaving (admission := adm) (p.state.occupied_iff.mpr known) leaves
    exact ⟨exec_roundEnd_due due, entry.trans empty, State.closed_reports_left tag (closing.trans row)⟩
  case expired =>
    have expires : p.expires = true := PeerEntry.expires_iff.mpr ⟨Option.isSome_iff_exists.mpr held, old⟩
    have named : u.roundEndTo (fun _ t => t.expires slot) = u.roundEnd index :=
      named (by simp only [State.expires, Bool.and_eq_true, bne_iff_ne]; exact ⟨other, expires⟩)
    have emptied : q.delay = none ∧ q.delayAge = 0 := by
      rw [entry]
      exact PeerEntry.close_expired other expires
    refine ⟨?_, emptied.1, emptied.2, fun counted good => ?_⟩
    · rw [exec_delayEstimateExpired, show (s.elapse dt).roundEndTo _ = _ from named]
    · have occupied : p.state.occupied = true := by rw [counted]; rfl
      obtain ⟨stays, here⟩ := PeerEntry.countStreaks_few occupied (.inl good)
      obtain ⟨row, state⟩ := (PeerEntry.closing_of_counted (admission := adm) counted stays here).1 expires
      rw [entry, PeerEntry.close_state occupied stays here, row]
      exact state

end Sys2Proof.Machine
end

section
/-! PROOFS. The Station Controller at a round close: in FOUNDING (R30), in JOINING (R35), and in LISTEN with its founding (R25
to R27). -/

namespace Sys2Proof.Machine

/-! ### The agreement point where there is none (R66) -/

/-- A station that takes part in no agreement. -/
theorem State.agreementPoint_of_apart {s : State} (h : s.station.state = .listen ∨ s.station.state = .founding) :
    s.agreementPoint = s := by
  rcases h with h | h <;> simp only [State.agreementPoint, h]

section
variable {s t : State} {index : Option Nat}

/-- A round close that leaves the station apart from the agreement and owes no round end is the whole round end. -/
theorem State.roundEnd_of_apart (closed : s.closeRound index = t)
    (apart : t.station.state = .listen ∨ t.station.state = .founding) (settled : t.link.owedRoundEnd = none) :
    s.roundEnd index = t := by
  rw [State.roundEnd_eq, closed, State.agreementPoint_of_apart apart, State.settleOwed_none settled]

theorem State.closeTable_signal_owed (s : State) (index : Option Nat) :
    (s.signal index).closeTable.link.owedRoundEnd = s.link.owedRoundEnd := by
  rw [State.closeTable_link, State.signal_owed]

end

/-! ### Entries of a round close (R22) -/

section
variable (c : Cause) (s : State)

theorem State.enterAgreed_station : (s.enterAgreed c).station = (s.move .agreed c).station := by
  simp [State.enterAgreed, State.clearCounts]

theorem State.enterAgreed_reports : Reports s (s.enterAgreed c) (.stateChanged .agreed c) :=
  (State.move_reports .agreed c s).after (by simp [State.enterAgreed, State.clearCounts])

theorem State.enterAgreed_discipline : (s.enterAgreed c).discipline =
    { s.discipline with holdoverValue := s.discipline.rate, holdoverValid := true } := by
  simp [State.enterAgreed, State.clearCounts]

theorem State.enterAgreed_agreement :
    (s.enterAgreed c).agreement = { s.agreement with shortRounds := 0, disagreements := 0 } := by
  simp [State.enterAgreed, State.clearCounts]

theorem State.enterAgreed_owed : (s.enterAgreed c).link.owedRoundEnd = s.link.owedRoundEnd := by
  simp [State.enterAgreed, State.clearCounts]

theorem State.enterFounding_station : (s.enterFounding c).station =
    { (s.move .founding c).station with foundingTimer := 0 } := by
  simp [State.enterFounding, State.clearCounts]

theorem State.enterFounding_reports : Reports s (s.enterFounding c) (.stateChanged .founding c) :=
  (State.move_reports .founding c s).after (by simp [State.enterFounding, State.clearCounts])

theorem State.enterFounding_agreement :
    (s.enterFounding c).agreement = { s.agreement with shortRounds := 0, disagreements := 0 } := by
  simp [State.enterFounding, State.clearCounts]

theorem State.enterFounding_link : (s.enterFounding c).link.mode = .windowed ∧
    (s.enterFounding c).link.owedRoundEnd = s.link.owedRoundEnd := by
  simp only [State.enterFounding, State.clearCounts]
  rw [State.openOccasion_link]
  simp [State.move_mode, StationState.mode]

end

/-! ### FOUNDING (R30) -/

theorem exec_foundingTimeout (dt : Elapsed) (s : State) : exec (.foundingTimeout dt) s =
    .next ((s.elapse dt).roundEndTo fun index t => t.foundingTimesOut index) := rfl

section
variable {s : State}

theorem State.controlClose_founding (h : s.station.state = .founding) : s.controlClose = s.countFounding := by
  simp only [State.controlClose, h]

theorem State.countFounding_founded (enough : s.config.quorum ≤ s.foundingCount) :
    s.countFounding = s.enterAgreed .founded := if_pos enough

theorem State.countFounding_waits (few : s.foundingCount < s.config.quorum) (early : s.station.foundingTimer + 1 < 64) :
    s.countFounding = s.setStation { s.station with foundingTimer := s.station.foundingTimer + 1 } := by
  rw [State.countFounding, if_neg few.not_ge]
  exact if_neg early.not_ge

theorem State.countFounding_over (few : s.foundingCount < s.config.quorum) (late : 64 ≤ s.station.foundingTimer + 1) :
    s.countFounding =
      (s.setStation { s.station with foundingTimer := s.station.foundingTimer + 1 }).enterListen .timeout := by
  rw [State.countFounding, if_neg few.not_ge]
  exact if_pos late

end

/-- A round close that times out returns the station to LISTEN, clock, peers and the rest kept (R30, R35). -/
structure State.TimesOut (s t : State) : Prop where
  state : t.station.state = .listen
  reports : Reports s t (.stateChanged .listen .timeout)
  listenTimer : t.station.listenTimer = some (4 + s.config.slot.val + s.station.extraListen)
  extraListen : t.station.extraListen = 0
  mode : t.link.mode = .openMode
  discipline : t.discipline = s.discipline
  peers : t.peers = s.peers
  agreement : t.agreement = s.agreement
  anchor : t.anchor = s.anchor
  source : t.source = s.source
  gens : t.gens = s.gens
  timecode : t.timecode = s.timecode

theorem State.enterListen_timesOut {s : State} {station : Station} (extra : station.extraListen = s.station.extraListen) :
    s.TimesOut ((s.setStation station).enterListen .timeout) := by
  have listens := State.enterListen_station .timeout (s.setStation station)
  exact {
    state := by rw [listens]
    reports := (State.enterListen_reports .timeout _).before rfl
    listenTimer := by
      rw [listens]
      simp only [State.config, State.setStation_port, State.setStation_station, extra]
    extraListen := by rw [listens]
    mode := State.enterListen_mode _ _
    discipline := by simp
    peers := by simp
    agreement := by simp
    anchor := by simp
    source := by simp
    gens := by simp
    timecode := by simp }

/-- Settles O36: by the count the close finds, then by the founding timer. -/
theorem foundingRoundClose : Obligations.FoundingRoundClose := by
  intro dt s index u c count due founding settled
  have station : c.station = u.station := by simp only [c, State.closeTable_station, State.signal_station]
  have config : c.config = u.config := by simp only [c, State.closeTable_config, State.signal_config]
  have owed : c.link.owedRoundEnd = none := (State.closeTable_signal_owed u index).trans settled
  have counted : c.foundingCount = count := rfl
  have closes : u.closeRound index = c.countFounding := State.controlClose_founding (station ▸ founding)
  have frame : c.discipline = u.discipline ∧ c.agreement = u.agreement ∧ c.anchor = u.anchor ∧ c.source = u.source ∧
      c.gens = u.gens ∧ c.timecode = u.timecode := by simp [c]
  have silent : State.SilentOn 1 u c := State.SilentOn.closed u index (by decide)
  have goes : exec (.roundEnd dt) s = .next (u.roundEnd index) := exec_roundEnd_due due
  clear_value c count
  obtain ⟨discipline, agreement, anchor, source, gens, timecode⟩ := frame
  refine ⟨fun enough => ?founded, fun few early => ?waits, fun few late => ?late⟩
  case founded =>
    have enters : u.closeRound index = c.enterAgreed .founded := by
      rw [closes, State.countFounding_founded (by rwa [config, counted])]
    refine ⟨by rw [goes, State.roundEnd_eq, enters], by rw [State.enterAgreed_station, State.move_state],
      silent.before (State.enterAgreed_reports _ _), by rw [State.enterAgreed_discipline, discipline],
      by rw [State.enterAgreed_agreement, agreement], State.enterAgreed_peers ..⟩
  case waits =>
    rw [State.countFounding_waits (by rwa [config, counted]) (by rwa [station]), station] at closes
    rw [goes, State.roundEnd_of_apart closes (.inr founding) owed]
  case late =>
    rw [State.countFounding_over (by rwa [config, counted]) (by rwa [station]), station] at closes
    have whole : u.roundEnd index = _ :=
      State.roundEnd_of_apart closes (.inl (by rw [State.enterListen_station])) ((State.enterListen_owed ..).trans owed)
    have named : u.foundingTimesOut index = true := by
      simp only [State.foundingTimesOut, founding, closes, State.enterListen_station, decide_true, Bool.and_self]
    have out := State.enterListen_timesOut (s := c)
      (station := { u.station with foundingTimer := u.station.foundingTimer + 1 }) (by rw [station])
    refine ⟨_, ?_, goes.trans (congrArg Host.Outcome.next whole), out.state, silent.before out.reports, ?_, out.extraListen, out.mode,
      out.discipline.trans discipline, out.peers, out.agreement.trans agreement, out.anchor.trans anchor,
      out.source.trans source, out.gens.trans gens, out.timecode.trans timecode⟩
    · rw [exec_foundingTimeout, show (s.elapse dt).roundEndTo _ = _ from State.roundEndTo_of_named due named]
      exact congrArg Host.Outcome.next whole
    · rw [out.listenTimer, config, station]

/-! ### JOINING (R35) -/

theorem exec_joiningSilenceTimeout (dt : Elapsed) (s : State) : exec (.joiningSilenceTimeout dt) s =
    .next ((s.elapse dt).roundEndTo fun index t => t.joiningTimesOut index) := rfl

theorem PeerTable.number_eq_zero_iff (t : PeerTable) (st : EntryState) :
    t.number st = 0 ↔ ∀ i : Fin 32, (t.entries[i]).state ≠ st := by
  simp [PeerTable.number, List.filter_eq_nil_iff]

theorem State.silent_iff {s : State} : s.silent = true ↔
    ∀ i : Fin 32, (s.peers.entries[i]).state ≠ .heard ∧ (s.peers.entries[i]).state ≠ .counted := by
  simp only [State.silent, Bool.and_eq_true, beq_iff_eq, PeerTable.number_eq_zero_iff]
  exact forall_and.symm

theorem State.countSilence_over {s : State} (silent : s.silent = true) (late : 16 ≤ s.station.silenceCount + 1) :
    s.countSilence = (s.setStation { s.station with silenceCount := s.station.silenceCount + 1 }).enterListen .timeout := by
  rw [State.countSilence, if_pos silent]
  exact if_pos late

theorem State.countSilence_heard {s : State} (heard : ¬s.silent = true) :
    s.countSilence = s.setStation { s.station with silenceCount := 0 } := if_neg heard

/-- Settles O37: by the peers the close leaves known, then by the silence count. -/
theorem joiningRoundClose : Obligations.JoiningRoundClose := by
  intro dt s index u c due joining settled
  have station : c.station = u.station := by simp only [c, State.closeTable_station, State.signal_station]
  have config : c.config = u.config := by simp only [c, State.closeTable_config, State.signal_config]
  have owed : c.link.owedRoundEnd = none := (State.closeTable_signal_owed u index).trans settled
  have closes : u.closeRound index = c.countSilence := State.controlClose_joining (station ▸ joining)
  have frame : c.discipline = u.discipline ∧ c.agreement = u.agreement ∧ c.anchor = u.anchor ∧ c.source = u.source ∧
      c.gens = u.gens ∧ c.timecode = u.timecode := by simp [c]
  have silent : State.SilentOn 1 u c := State.SilentOn.closed u index (by decide)
  have goes : exec (.roundEnd dt) s = .next (u.roundEnd index) := exec_roundEnd_due due
  clear_value c
  obtain ⟨discipline, agreement, anchor, source, gens, timecode⟩ := frame
  refine ⟨fun ⟨i, heard⟩ => ?heard, fun none => ⟨fun few => ?few, fun late => ?late⟩⟩
  case heard =>
    have known : ¬c.silent = true := fun k => heard.elim (State.silent_iff.mp k i).1 (State.silent_iff.mp k i).2
    rw [State.countSilence_heard known, station] at closes
    rw [goes, State.roundEnd_eq, closes]
  case few =>
    rw [State.countSilence_stays (by rwa [station]), if_pos (State.silent_iff.mpr none), station] at closes
    rw [goes, State.roundEnd_eq, closes]
  case late =>
    rw [State.countSilence_over (State.silent_iff.mpr none) (by rwa [station]), station] at closes
    have whole : u.roundEnd index = _ :=
      State.roundEnd_of_apart closes (.inl (by rw [State.enterListen_station])) ((State.enterListen_owed ..).trans owed)
    have named : u.joiningTimesOut index = true := by
      simp only [State.joiningTimesOut, joining, closes, State.enterListen_station, decide_true, Bool.and_self]
    have out := State.enterListen_timesOut (s := c)
      (station := { u.station with silenceCount := u.station.silenceCount + 1 }) (by rw [station])
    refine ⟨_, ?_, goes.trans (congrArg Host.Outcome.next whole), out.state, silent.before out.reports, ?_, out.extraListen, out.mode,
      out.discipline.trans discipline, out.peers, out.agreement.trans agreement, out.anchor.trans anchor,
      out.source.trans source, out.gens.trans gens, out.timecode.trans timecode⟩
    · rw [exec_joiningSilenceTimeout, show (s.elapse dt).roundEndTo _ = _ from State.roundEndTo_of_named due named]
      exact congrArg Host.Outcome.next whole
    · rw [out.listenTimer, config, station]

end Sys2Proof.Machine
end

section
/-! PROOFS. The listen timer and the founding that its expiry can come to (R25 to R27). -/

namespace Sys2Proof.Machine

theorem State.setStation_config (s : State) (x : Station) : (s.setStation x).config = s.config := rfl

/-! ### A step that is noticed (R87) -/

section
variable (o : StepOrigin) (amount : Int) (s : State)

/-- A noticed step is the step with the notice of it. -/
theorem State.stepNoticed_eq : s.stepNoticed o amount =
    (s.stepClock amount).setNotices (s.stepNoticed o amount).notices := by
  unfold State.stepNoticed
  split
  next zero => rw [zero]; rfl
  next => rfl

theorem State.stepNoticed_link : (s.stepNoticed o amount).link = (s.stepClock amount).link := by
  rw [State.stepNoticed_eq]; rfl

theorem State.stepNoticed_discipline : (s.stepNoticed o amount).discipline = (s.stepClock amount).discipline := by
  rw [State.stepNoticed_eq]; rfl

theorem State.stepNoticed_anchor : (s.stepNoticed o amount).anchor = (s.stepClock amount).anchor := by
  rw [State.stepNoticed_eq]; rfl

theorem State.stepNoticed_reports (nonzero : amount ≠ 0) : Reports s (s.stepNoticed o amount) (.stepped o amount) := by
  rw [State.stepNoticed, if_neg nonzero]
  exact (Reports.raise _ _).before (State.SilentOn.stepClock (k := 6) s amount (by decide)).enables

end

section
variable {s : State} {c : Nat} {amount : Int}

theorem State.stepClock_of_invalid (h : s.discipline.clock = none) : s.stepClock amount = s := by
  simp only [State.stepClock, h]

/-- A step that does not carry the reading into a later round owes no round end (R3). -/
theorem State.stepClock_owed_of_within (clock : s.discipline.clock = some c)
    (within : roundOf (clampUnits (c + amount * 1000000000) / 1000000000) ≤ roundOf (c / 1000000000)) :
    (s.stepClock amount).link.owedRoundEnd = s.link.owedRoundEnd := by
  simp only [State.stepClock, clock]
  split
  · rfl
  · rw [State.openOccasion_link]
    simp only [State.applyDue_link, State.stepGens_link, Link.onStep]
    exact if_neg (by simp [unitsPerNs, within])

theorem State.applyDue_offset (s : State) : s.applyDue.anchor.offset = s.anchor.offset := by
  unfold State.applyDue State.applyChange
  (repeat' split) <;> simp

/-- A step lowers the held anchor offset by its amount (R107). -/
theorem State.stepClock_offset (clock : s.discipline.clock = some c) (nonzero : amount ≠ 0) :
    (s.stepClock amount).anchor.offset = s.anchor.offset.map (· - amount) := by
  simp only [State.stepClock, clock, if_neg nonzero, State.openOccasion_anchor, State.applyDue_offset,
    State.stepGens_anchor, Anchor.onStep]

end

/-! ### The clock on entry into FOUNDING (R27) -/

section
variable {s : State}

theorem State.foundClock_of_anchor {x : Int} (valid : s.anchor.valid = true) (offset : s.anchor.offset = some x) :
    s.foundClock = s.stepNoticed .founding x := by
  simp only [State.foundClock, valid, offset]

theorem State.foundClock_of_valid (unanchored : s.anchor.valid = false ∨ s.anchor.offset = none)
    (clock : s.clockValid = true) : s.foundClock = s := by
  unfold State.foundClock
  split
  next valid offset => rcases unanchored with h | h <;> simp_all
  next invalid _ _ => rw [clock] at invalid; cases invalid
  next => rfl

theorem State.foundClock_of_seed {w : Seed} (unanchored : s.anchor.valid = false) (unset : s.clockValid = false)
    (seed : s.station.seed = some w) : s.foundClock = s.setClock w.units := by
  simp only [State.foundClock, unanchored, unset, seed]

/-- The clock of a founder is stepped by its anchor, set from its seed, or kept (R27). -/
theorem State.foundClock_cases (s : State) : s.foundClock = s ∨ (∃ units, s.foundClock = s.setClock units) ∨
    ∃ x, s.anchor.valid = true ∧ s.anchor.offset = some x ∧ s.foundClock = s.stepNoticed .founding x := by
  unfold State.foundClock
  split
  next valid offset => exact .inr (.inr ⟨_, valid, offset, rfl⟩)
  next => exact .inr (.inl ⟨_, rfl⟩)
  next => exact .inl rfl

theorem State.foundClock_mode (s : State) : s.foundClock.link.mode = s.link.mode := by
  rcases s.foundClock_cases with h | ⟨units, h⟩ | ⟨x, -, -, h⟩ <;> rw [h]
  · rw [State.setClock_link]
  · rw [State.stepNoticed_link]
    exact (s.stepClock_keeps x).1

theorem State.SilentOn.foundClock {k : Fin 27} (s : State) (label : k ≠ 22) (stepped : k ≠ 6) :
    State.SilentOn k s s.foundClock := by
  rcases s.foundClock_cases with h | ⟨units, h⟩ | ⟨x, -, -, h⟩ <;> rw [h]
  · exact .of_notices rfl
  · exact .of_notices (by simp)
  · exact .stepNoticed _ _ _ label stepped

theorem State.foundClock_rate (s : State) : s.foundClock.discipline.rate = s.discipline.rate := by
  rcases s.foundClock_cases with h | ⟨units, h⟩ | ⟨x, -, -, h⟩ <;> rw [h]
  · rw [State.setClock_discipline]
  · rw [State.stepNoticed_discipline]
    cases clock : s.discipline.clock with
    | none => rw [State.stepClock_of_invalid clock]
    | some c => rw [State.stepClock_discipline x clock]

/-- The founder's clock owes no round end unless its anchor carries the reading into a later round. -/
theorem State.foundClock_owed (within : ∀ x c, s.anchor.valid = true → s.anchor.offset = some x →
      s.discipline.clock = some c →
      roundOf (clampUnits (c + x * 1000000000) / 1000000000) ≤ roundOf (c / 1000000000)) :
    s.foundClock.link.owedRoundEnd = s.link.owedRoundEnd := by
  rcases s.foundClock_cases with h | ⟨units, h⟩ | ⟨x, valid, offset, h⟩ <;> rw [h]
  · rw [State.setClock_link]
  · rw [State.stepNoticed_link]
    cases clock : s.discipline.clock with
    | none => rw [State.stepClock_of_invalid clock]
    | some c => exact State.stepClock_owed_of_within clock (within x c valid offset clock)

end

/-- A station that founds (R26, R27): FOUNDING entered, and the clock stepped by the anchor, kept, or set from the seed. -/
structure State.Founds (s t : State) : Prop where
  state : t.station.state = .founding
  reports : Reports s t (.stateChanged .founding .expired)
  foundingTimer : t.station.foundingTimer = 0
  listenTimer : t.station.listenTimer = none
  mode : t.link.mode = .windowed
  agreement : t.agreement = { s.agreement with shortRounds := 0, disagreements := 0 }
  seed : t.station.seed = s.station.seed
  source : t.source = s.source
  rate : t.discipline.rate = s.discipline.rate
  stepped : ∀ x c, s.anchor.valid = true → s.anchor.offset = some x → s.discipline.clock = some c →
    t.discipline.clock = some (if x = 0 then c else clampUnits (c + x * 1000000000)) ∧
      (x ≠ 0 → Reports s t (.stepped .founding x) ∧ t.anchor.offset = some 0)
  kept : ∀ c, s.anchor.valid = false → s.discipline.clock = some c → t.discipline = s.discipline
  set : ∀ w, s.anchor.valid = false → s.discipline.clock = none → s.station.seed = some w →
    t.discipline.clock = some (clampUnits
      ((w.seconds * 1000000000 + w.ns) * 1000000000 + w.elapsedRc * 62500000000 : Nat))

theorem State.enterFounding_founds (s : State) : s.Founds (s.enterFounding .expired).foundClock := by
  obtain ⟨f, entered⟩ : ∃ f, f = s.enterFounding .expired := ⟨_, rfl⟩
  have station := (s.enterFounding_station .expired).trans (by rw [State.move_station])
  have reports := s.enterFounding_reports .expired
  have discipline : f.discipline = s.discipline := by rw [entered, State.enterFounding_discipline]
  have anchor : f.anchor = s.anchor := by rw [entered, State.enterFounding_anchor]
  rw [← entered] at station reports ⊢
  refine {
    state := by rw [State.foundClock_station, station]
    reports := (State.SilentOn.foundClock f (k := 1) (by decide) (by decide)).after reports
    foundingTimer := by rw [State.foundClock_station, station]
    listenTimer := by rw [State.foundClock_station, station]
    mode := by rw [State.foundClock_mode, entered, (s.enterFounding_link .expired).1]
    agreement := by rw [State.foundClock_agreement, entered, State.enterFounding_agreement]
    seed := by rw [State.foundClock_station, station]
    source := by rw [State.foundClock_source, entered, State.enterFounding_source]
    rate := by rw [State.foundClock_rate, discipline]
    stepped := fun x c valid offset clock => ?stepped
    kept := fun c invalid clock => ?kept
    set := fun w invalid unset seed => ?set }
  case stepped =>
    have held : f.discipline.clock = some c := by rw [discipline, clock]
    rw [State.foundClock_of_anchor (by rw [anchor, valid]) (by rw [anchor, offset]), State.stepNoticed_discipline,
      State.stepClock_discipline x held, State.stepNoticed_anchor]
    have enables : f.notices.enables = s.notices.enables := by
      rw [entered]; simp [State.enterFounding, State.clearCounts]
    refine ⟨rfl, fun nonzero => ⟨(State.stepNoticed_reports _ _ _ nonzero).before enables, ?_⟩⟩
    rw [State.stepClock_offset held nonzero, anchor, offset, Option.map_some, sub_self]
  case kept =>
    rw [State.foundClock_of_valid (.inl (by rw [anchor, invalid])) (by simp [State.clockValid, discipline, clock]), discipline]
  case set =>
    rw [State.foundClock_of_seed (by rw [anchor, invalid]) (by simp [State.clockValid, discipline, unset])
      (by rw [station]; exact seed), State.setClock_discipline]
    rfl

/-! ### LISTEN (R25, R26) -/

theorem exec_listenTimerExpiry (dt : Elapsed) (s : State) : exec (.listenTimerExpiry dt) s =
    .next ((s.elapse dt).roundEndTo fun _ t => t.listenExpires) := rfl

section
variable {s : State}

theorem State.controlClose_listen (h : s.station.state = .listen) : s.controlClose = s.countListen := by
  simp only [State.controlClose, h]

theorem State.countListen_waits {k : Nat} (timer : s.station.listenTimer = some (k + 2)) :
    s.countListen = s.setStation { s.station with listenTimer := some (k + 1) } := by
  simp [State.countListen, timer]

theorem State.countListen_expires (timer : s.station.listenTimer = some 1) :
    s.countListen = (s.setStation { s.station with listenTimer := some 0 }).listenExpiry := by
  simp [State.countListen, timer]

theorem State.mayFound_iff : s.mayFound = true ↔
    s.config.founding = true ∧ (s.station.seed.isSome = true ∨ s.anchor.valid = true) := by
  simp [State.mayFound, State.seeded]

theorem State.listenExpiry_founds (h : s.mayFound = true) : s.listenExpiry = (s.enterFounding .expired).foundClock := if_pos h

theorem State.listenExpiry_listens (h : ¬s.mayFound = true) : s.listenExpiry = s.keepListening := if_neg h

/-- An expiry that stays in LISTEN changes the station and at most one notice (R25, R26). -/
theorem State.keepListening_frame (s : State) : s.keepListening = (s.setStation { s.station with
    listenNotice := true, listenTimer := some (4 + s.config.slot.val) }).setNotices s.keepListening.notices := by
  unfold State.keepListening
  dsimp only
  split <;> rfl

theorem State.keepListening_notices_of_told (told : s.station.listenNotice = true) :
    s.keepListening.notices = s.notices := by
  simp [State.keepListening, told]

theorem State.keepListening_reports (untold : s.station.listenNotice = false) :
    Reports s s.keepListening (if s.config.founding then .noSeed else .alone) := by
  have raised : s.keepListening.notices = (s.raise (if s.config.founding then .noSeed else .alone)).notices := by
    simp [State.keepListening, untold]
  exact (Reports.raise s _).after (by rw [raised])

end

/-- Settles O38: by the timer the round end finds, then by what the station may found from. -/
theorem listenTimerExpires : Obligations.ListenTimerExpires := by
  intro dt s index u c founds due listen settled
  have station : c.station = u.station := by simp only [c, State.closeTable_station, State.signal_station]
  have config : c.config = u.config := by simp only [c, State.closeTable_config, State.signal_config]
  have owed : c.link.owedRoundEnd = none := (State.closeTable_signal_owed u index).trans settled
  have closes : u.closeRound index = c.countListen := State.controlClose_listen (station ▸ listen)
  have frame : c.discipline = u.discipline ∧ c.agreement = u.agreement ∧ c.anchor = u.anchor ∧ c.source = u.source := by
    simp [c]
  have silent (k : Fin 27) (other : k ≠ 9 ∧ k ≠ 10 ∧ k ≠ 11 ∧ k ≠ 12) : State.SilentOn k u c :=
    State.SilentOn.closed u index other
  have goes : exec (.roundEnd dt) s = .next (u.roundEnd index) := exec_roundEnd_due due
  have named : u.listenExpires = true → exec (.listenTimerExpiry dt) s = .next (u.roundEnd index) := fun expires => by
    rw [exec_listenTimerExpiry, show (s.elapse dt).roundEndTo _ = _ from State.roundEndTo_of_named due expires]
  clear_value c
  obtain ⟨discipline, agreement, anchor, source⟩ := frame
  have may (v : Station) (seed : v.seed = u.station.seed) : (c.setStation v).mayFound = true ↔ founds := by
    rw [State.mayFound_iff, State.setStation_station, State.setStation_anchor, seed, anchor,
      State.setStation_config, config]
  refine ⟨fun k timer => ?waits, fun timer stays => ?listens, fun timer sources => ?founds⟩
  case waits =>
    rw [State.countListen_waits (k := k) (by rwa [station]), station] at closes
    rw [goes, State.roundEnd_of_apart closes (.inl listen) owed]
  case listens =>
    rw [State.countListen_expires (by rwa [station]), station, State.listenExpiry_listens
      (fun h => stays ((may { u.station with listenTimer := some 0 } rfl).mp h))] at closes
    have expires : u.listenExpires = true := by simp [State.listenExpires, listen, timer]
    have kept := State.keepListening_frame (c.setStation { u.station with listenTimer := some 0 })
    rw [State.setStation_config, config] at kept
    generalize ht : (c.setStation { u.station with listenTimer := some 0 }).keepListening = t at closes kept
    have left : t.station = { u.station with listenNotice := true, listenTimer := some (4 + u.config.slot.val) } := by
      rw [kept]
      rfl
    have whole : u.roundEnd index = t :=
      State.roundEnd_of_apart closes (.inl (by rw [left]; exact listen)) (by rw [kept]; exact owed)
    have reports (untold : u.station.listenNotice = false) :
        Reports c t (if u.config.founding then .noSeed else .alone) := by
      have said := State.keepListening_reports (s := c.setStation { u.station with listenTimer := some 0 }) untold
      rw [ht, State.setStation_config, config] at said
      exact said.before rfl
    refine ⟨t, by rw [named expires, whole], by rw [goes, whole], left, fun untold founder => ?_, fun untold other => ?_,
      fun told => ?_, ?_⟩
    · have said := reports untold
      rw [if_pos founder] at said
      exact (silent 26 (by decide)).before said
    · have said := reports untold
      rw [if_neg (by rw [other]; exact Bool.false_ne_true)] at said
      exact (silent 25 (by decide)).before said
    · rw [← ht]
      exact State.keepListening_notices_of_told told
    · rw [left]
      exact kept
  case founds =>
    have may := (may { u.station with listenTimer := some 0 } rfl).mpr sources
    rw [State.countListen_expires (by rwa [station]), station, State.listenExpiry_founds may] at closes
    have expires : u.listenExpires = true := by simp [State.listenExpires, listen, timer]
    refine ⟨_, named expires, goes, fun within => ?_⟩
    obtain ⟨v, hv⟩ : ∃ v, v = c.setStation { u.station with listenTimer := some 0 } := ⟨_, rfl⟩
    rw [← hv] at closes
    have same : v.anchor = u.anchor ∧ v.discipline = u.discipline ∧ v.agreement = u.agreement ∧ v.source = u.source ∧
        v.station = { u.station with listenTimer := some 0 } := by
      rw [hv]
      exact ⟨anchor, discipline, agreement, source, rfl⟩
    obtain ⟨anchor, discipline, agreement, source, station⟩ := same
    have silent (k : Fin 27) (other : k ≠ 9 ∧ k ≠ 10 ∧ k ≠ 11 ∧ k ≠ 12) : State.SilentOn k u v :=
      (silent k other).trans (.of_notices (by rw [hv]; rfl))
    have done := v.enterFounding_founds
    have still : (v.enterFounding .expired).foundClock.link.owedRoundEnd = none := by
      rw [State.foundClock_owed, (v.enterFounding_link .expired).2, hv]
      · exact owed
      · rw [State.enterFounding_anchor, State.enterFounding_discipline, anchor, discipline]
        exact within
    rw [State.roundEnd_of_apart closes (.inr done.state) still]
    refine ⟨done.state, (silent 1 (by decide)).before done.reports, done.foundingTimer, done.listenTimer, done.mode, ?_, ?_, ?_,
      ?_, fun x a valid offset clock => ?_, fun a invalid clock => ?_, fun w invalid unset seed => ?_⟩
    · rw [done.agreement, agreement]
    · rw [done.seed, station]
    · rw [done.source, source]
    · rw [done.rate, discipline]
    · obtain ⟨moved, rest⟩ := done.stepped x a (by rw [anchor, valid]) (by rw [anchor, offset]) (by rw [discipline, clock])
      exact ⟨moved, fun nonzero => (rest nonzero).imp_left (silent 6 (by decide)).before⟩
    · rw [done.kept a (by rw [anchor, invalid]) (by rw [discipline, clock]), discipline]
    · exact done.set w (by rw [anchor, invalid]) (by rw [discipline, unset]) (by rw [station]; exact seed)

end Sys2Proof.Machine
end

section
/-! PROOFS. The discipline rules row by row (R88 to R96), the steering term (R108, R109), and the short round in AGREED that
slews by it alone (R94). -/

namespace Sys2Proof.Machine

/-! ### Slews and rate (R92 to R96) -/

/-- The slew chosen at clock `c`: none for 0, else spent by the start of the next round (R93). -/
def slewFrom (c : Nat) (x : Int) : Option Slew :=
  if x = 0 then none else some ⟨x, 0, (c / 1000000000 / 8000000 + 1) * 8000000 * 1000000000⟩

section
variable {s : State} {c : Nat}

theorem State.reading_of_clock (clock : s.discipline.clock = some c) : s.reading = some (c / 1000000000) := by
  rw [State.reading, clock]; rfl

theorem State.chooseSlew_of_clock (clock : s.discipline.clock = some c) (x : Int) :
    s.chooseSlew x = s.setDiscipline { s.discipline with slew := slewFrom c x } := by
  simp only [State.chooseSlew, State.reading_of_clock clock]
  rfl

/-- Steering alone: a term of 0 leaves the slew held (R94). -/
theorem State.steerOnly_of_clock (clock : s.discipline.clock = some c) (steer : Int) : s.steerOnly steer =
    s.setDiscipline { s.discipline with slew := if steer = 0 then s.discipline.slew else slewFrom c steer } := by
  unfold State.steerOnly
  split
  · rfl
  · exact State.chooseSlew_of_clock clock steer

theorem integrated_eq (rate e : Int) : integrated rate e = max (-100000) (min 100000 (rate + Int.tdiv (e * 125) 64)) := rfl

variable (e : Int) (s)

theorem State.integrate_discipline : (s.integrate e).discipline = { s.discipline with
    rate := integrated s.discipline.rate e, holdoverValue := integrated s.discipline.rate e
    band := bandOf (integrated s.discipline.rate e) } := by
  simp [State.integrate]

theorem kind_of_mem_limitNotices {rate : Int} {n : Notice} (h : n ∈ limitNotices rate) : n.kind = 16 := by
  obtain ⟨-, mem⟩ := List.mem_ite_nil_right.mp h
  rw [List.mem_singleton.mp mem]
  rfl

theorem kind_of_mem_bandNotices {held new : Nat} {n : Notice} (h : n ∈ bandNotices held new) : n.kind = 15 := by
  obtain ⟨-, mem⟩ := List.mem_ite_nil_left.mp h
  rw [List.mem_singleton.mp mem]
  rfl

theorem State.integrate_reports_limit (limit : (integrated s.discipline.rate e).natAbs = 100000) :
    Reports s (s.integrate e) (.rateLimit (integrated s.discipline.rate e)) := by
  have said : limitNotices (integrated s.discipline.rate e) = [.rateLimit (integrated s.discipline.rate e)] := if_pos limit
  simp only [State.integrate, said]
  refine (Reports.raiseAll [] _ (fun m mem => ?_) _).before rfl
  rw [kind_of_mem_bandNotices mem]
  exact (by decide : (16 : Fin 27) ≠ 15)

theorem State.integrate_reports_band (changes : bandOf (integrated s.discipline.rate e) ≠ s.discipline.band) :
    Reports s (s.integrate e) (.rateBand (bandOf (integrated s.discipline.rate e))
      (decide (s.discipline.band < bandOf (integrated s.discipline.rate e)))) := by
  have said : bandNotices s.discipline.band (bandOf (integrated s.discipline.rate e)) =
      [.rateBand (bandOf (integrated s.discipline.rate e))
        (decide (s.discipline.band < bandOf (integrated s.discipline.rate e)))] := if_neg changes
  simp only [State.integrate, said]
  exact (Reports.raiseAll _ _ (List.forall_mem_nil _) _).before rfl

theorem State.SilentOn.integrate {k : Fin 27} (band : k ≠ 15) (limit : k ≠ 16) : State.SilentOn k s (s.integrate e) := by
  refine .raiseAll rfl fun n mem => ?_
  rcases List.mem_append.mp mem with mem | mem
  · rw [kind_of_mem_limitNotices mem]; exact limit
  · rw [kind_of_mem_bandNotices mem]; exact band

end

/-! ### The rows (R88) -/

section
variable {e : Int} {marked : Bool} {steer : Int} {s : State}

theorem State.applyRules_joiningStep (first : s.beforeJoiningStep = true) : s.applyRules e marked steer =
    (s.setDiscipline { s.discipline with
      restart := s.config.restartRounds, coastMark := false, joiningStepTaken := true }).stepNoticed .joining e := by
  have row : s.row e marked = .joiningStep := if_pos first
  simp only [State.applyRules, row]
  rfl

section
variable (later : s.beforeJoiningStep = false)
include later

theorem State.applyRules_beyondM (beyond : marked = true) : s.applyRules e marked steer = s.steerOnly steer := by
  have row : s.row e marked = .beyondM := by simp [State.row, later, beyond]
  simp only [State.applyRules, row]

variable (within : marked = false)
include within

theorem State.applyRules_largeStep (large : s.config.stepThreshold < e.natAbs) : s.applyRules e marked steer =
    (s.setDiscipline { s.discipline with
      restart := s.config.restartRounds, coastMark := false }).stepNoticed .estimate e := by
  have row : s.row e marked = .largeStep := by simp [State.row, later, within, large]
  simp only [State.applyRules, row]
  rfl

variable (small : e.natAbs ≤ s.config.stepThreshold)
include small

theorem State.applyRules_restartSlew (restarts : 0 < s.discipline.restart ∨ s.discipline.coastMark = true) :
    s.applyRules e marked steer = ((s.setDiscipline { s.discipline with
      restart := s.discipline.restart - 1, coastMark := false }).chooseSlew (e + steer)).integrate e := by
  have row : s.row e marked = .restartSlew := by simp [State.row, later, within, small.not_gt, restarts]
  simp only [State.applyRules, row]
  rfl

variable (settled : s.discipline.restart = 0) (unmarked : s.discipline.coastMark = false)
include settled unmarked

theorem State.applyRules_deadBand (near : e.natAbs ≤ s.config.deadBand) :
    s.applyRules e marked steer = s.steerOnly steer := by
  have row : s.row e marked = .deadBand := by simp [State.row, later, within, small.not_gt, settled, unmarked, near]
  simp only [State.applyRules, row]

theorem State.applyRules_smoothed (far : s.config.deadBand < e.natAbs) : s.applyRules e marked steer =
    (s.chooseSlew (smoothedSlew s.config.smoothing s.config.slewLimit e + steer)).integrate e := by
  have row : s.row e marked = .smoothed := by simp [State.row, later, within, small.not_gt, settled, unmarked, far.not_ge]
  simp only [State.applyRules, row]

end

end

/-- Rows without a step slew and integrate: the rules then change the discipline and the notices, and keep the clock. -/
theorem State.applyRules_of_slew {e steer : Int} {marked : Bool} {s : State} (later : s.beforeJoiningStep = false)
    (slews : marked = true ∨ e.natAbs ≤ s.config.stepThreshold) : let t := s.applyRules e marked steer
    t = (s.setDiscipline t.discipline).setNotices t.notices ∧ t.discipline.clock = s.discipline.clock ∧
      State.SilentOn 1 s t := by
  have integrates (x : State) : x.integrate e = (x.setDiscipline (x.integrate e).discipline).setNotices (x.integrate e).notices := by
    rw [State.integrate_discipline]
    exact State.raiseAll_frame ..
  have chooses (x : Int) (y : State) : y.chooseSlew x = y.setDiscipline (y.chooseSlew x).discipline ∧
      (y.chooseSlew x).discipline.clock = y.discipline.clock := by
    unfold State.chooseSlew
    split <;> exact ⟨rfl, rfl⟩
  have steers : s.steerOnly steer = (s.setDiscipline (s.steerOnly steer).discipline).setNotices (s.steerOnly steer).notices ∧
      (s.steerOnly steer).discipline.clock = s.discipline.clock ∧ State.SilentOn 1 s (s.steerOnly steer) := by
    unfold State.steerOnly
    split
    · exact ⟨rfl, rfl, .of_notices rfl⟩
    · obtain ⟨frame, clock⟩ := chooses steer s
      exact ⟨frame.trans (by rw [State.chooseSlew_notices]; rfl), clock, .of_notices (by simp)⟩
  cases marked with
  | true =>
    simp only [State.applyRules_beyondM later rfl]
    exact steers
  | false =>
    have small := slews.resolve_left Bool.false_ne_true
    by_cases restarts : 0 < s.discipline.restart ∨ s.discipline.coastMark = true
    · obtain ⟨frame, clock⟩ := chooses (e + steer) (s.setDiscipline { s.discipline with
        restart := s.discipline.restart - 1, coastMark := false })
      simp only [State.applyRules_restartSlew later rfl small restarts]
      refine ⟨(integrates _).trans ?_, ?_, (State.SilentOn.integrate _ e (by decide) (by decide)).since (by simp)⟩
      · conv_lhs => enter [1, 1]; rw [frame]
        rfl
      · rw [State.integrate_discipline]
        exact clock
    · obtain ⟨zero, unmarked⟩ : s.discipline.restart = 0 ∧ s.discipline.coastMark = false := by simpa using restarts
      rcases le_or_gt e.natAbs s.config.deadBand with near | far
      · simp only [State.applyRules_deadBand later rfl small zero unmarked near]
        exact steers
      · obtain ⟨frame, clock⟩ := chooses (smoothedSlew s.config.smoothing s.config.slewLimit e + steer) s
        simp only [State.applyRules_smoothed later rfl small zero unmarked far]
        refine ⟨(integrates _).trans ?_, ?_, (State.SilentOn.integrate _ e (by decide) (by decide)).since (by simp)⟩
        · conv_lhs => enter [1, 1]; rw [frame]
          rfl
        · rw [State.integrate_discipline]
          exact clock

end Sys2Proof.Machine
end

section
/-! PROOFS. The steering term (R108, R109) and the agreement point of AGREED as far as the quorum (R36, R66, R94, R112); then
the discipline rules as one statement, and the loss of the quorum. -/

namespace Sys2Proof.Machine

/-! ### The steering term (R108, R109) -/

section
variable {agreementLimit captureLimit steerLimit : Nat} {offsets : List Int}

theorem steering_nil : steering agreementLimit captureLimit steerLimit [] = (0, []) := rfl

/-- The anchor offsets in order are those that sort them. -/
theorem insertionSort_eq {sorted : List Int} (perm : sorted.Perm offsets) (ordered : sorted.Pairwise (· ≤ ·)) :
    offsets.insertionSort (· ≤ ·) = sorted :=
  ((List.perm_insertionSort _ offsets).trans perm.symm).eq_of_pairwise' (List.pairwise_insertionSort _ offsets) ordered

section
variable {least median greatest : Int} (first : (offsets.insertionSort (· ≤ ·)).head? = some least)
  (middle : (offsets.insertionSort (· ≤ ·))[((offsets.insertionSort (· ≤ ·)).length - 1) / 2]? = some median)
  (last : (offsets.insertionSort (· ≤ ·)).getLast? = some greatest)

include first last in
theorem extent_of_ends : extent (offsets.insertionSort (· ≤ ·)) = greatest - least := by
  rw [extent, List.getLastD_eq_getLast?, List.headD_eq_head?_getD, first, last]
  rfl

include middle in
theorem lowerMedian_of_middle : lowerMedian (offsets.insertionSort (· ≤ ·)) = median := by
  rw [lowerMedian, List.getD_eq_getElem?_getD, middle]
  rfl

include first in
theorem offsets_ne_nil : offsets ≠ [] := by
  rintro rfl
  simp at first

include first last

theorem steering_split (wide : (agreementLimit : Int) < greatest - least) :
    steering agreementLimit captureLimit steerLimit offsets =
      (0, [.anchorsSplit offsets.length (greatest - least).toNat]) := by
  simp only [steering, if_neg (offsets_ne_nil first), extent_of_ends first last, if_pos wide]

include middle

theorem steering_far (close : greatest - least ≤ agreementLimit) (far : captureLimit < median.natAbs) :
    steering agreementLimit captureLimit steerLimit offsets = (0, [.anchorsFar median]) := by
  simp only [steering, if_neg (offsets_ne_nil first), extent_of_ends first last, if_neg close.not_gt,
    lowerMedian_of_middle middle, if_pos far]

theorem steering_near (close : greatest - least ≤ agreementLimit) (near : median.natAbs ≤ captureLimit) :
    steering agreementLimit captureLimit steerLimit offsets = (bounded steerLimit (Int.tdiv median 256), []) := by
  simp only [steering, if_neg (offsets_ne_nil first), extent_of_ends first last, if_neg close.not_gt,
    lowerMedian_of_middle middle, if_neg near.not_gt]

end

/-- Steering says at most one thing, of the anchors. -/
theorem steering_notices : (steering agreementLimit captureLimit steerLimit offsets).2 = [] ∨
    ∃ n : Notice, (steering agreementLimit captureLimit steerLimit offsets).2 = [n] ∧ (n.kind = 19 ∨ n.kind = 20) := by
  unfold steering
  dsimp only
  split_ifs
  · exact .inl rfl
  · exact .inr ⟨_, rfl, .inl rfl⟩
  · exact .inr ⟨_, rfl, .inr rfl⟩
  · exact .inl rfl

end

theorem State.kind_of_mem_steer {cs : List (Fin 32)} {s : State} {n : Notice} (h : n ∈ (s.steer cs).2) :
    n.kind = 19 ∨ n.kind = 20 := by
  rcases steering_notices (agreementLimit := s.config.agreementLimit) (captureLimit := s.config.captureLimit)
    (steerLimit := s.config.steerLimit) (offsets := s.anchorOffsets cs) with none | ⟨m, one, kind⟩
  · rw [State.steer, none] at h
    cases h
  · rw [State.steer, one] at h
    rwa [List.mem_singleton.mp h]

/-! ### The label notices (R112, R113) -/

section
variable (cs : List (Fin 32)) (s : State)

/-- The label notices leave what the anchor measures. -/
theorem State.examineLabels_anchor : (s.examineLabels cs).anchor.offset = s.anchor.offset ∧
    (s.examineLabels cs).anchor.valid = s.anchor.valid := by
  have applies (t : State) : t.applyDue.anchor.offset = t.anchor.offset ∧ t.applyDue.anchor.valid = t.anchor.valid := by
    unfold State.applyDue State.applyChange
    (repeat' split) <;> exact ⟨by simp, by simp⟩
  have adopts (slot : Fin 32) (n : LabelNotice) :
      (s.adopt slot n).anchor.offset = s.anchor.offset ∧ (s.adopt slot n).anchor.valid = s.anchor.valid := by
    unfold State.adopt
    exact ⟨(applies _).1.trans (by simp), (applies _).2.trans (by simp)⟩
  unfold State.examineLabels
  dsimp only
  (repeat' split) <;> simp [State.labelConflict, adopts]

@[simp] theorem State.examineLabels_config : (s.examineLabels cs).config = s.config := by simp [State.config]

theorem State.steer_examineLabels (ds : List (Fin 32)) : (s.examineLabels cs).steer ds = s.steer ds := by
  obtain ⟨offset, valid⟩ := s.examineLabels_anchor cs
  simp [State.steer, State.anchorOffsets, offset, valid]

end

/-! ### The agreement point of AGREED and ISOLATED (R36, R37, R66; log 34) -/

/-- The station at an agreement point that steers, its label notices and its anchor figure taken (log 34). -/
def State.steered (s : State) : State :=
  (s.examineLabels s.contributors).raiseAll ((s.examineLabels s.contributors).steer s.contributors).2

section
variable (s : State)

/-- What the agreement point reads is what the round close has left (R66). -/
theorem State.steered_reads : s.steered.contributors = s.contributors ∧ s.steered.deviationList = s.deviationList ∧
    s.steered.estimate = s.estimate ∧ s.steered.quorum = s.quorum ∧ s.steered.minority = s.minority ∧
      s.steered.config = s.config :=
  State.agreement_reads (by simp [State.steered]) (by simp [State.steered]) (by simp [State.steered]) (by simp [State.steered])

theorem State.steered_frame : s.steered.station = s.station ∧ s.steered.discipline = s.discipline ∧
    s.steered.agreement = s.agreement ∧ s.steered.peers = s.peers ∧ s.steered.link = s.link ∧
    s.steered.source = s.source ∧ s.steered.gens = s.gens ∧ s.steered.timecode = s.timecode := by
  simp [State.steered]

/-- Labels and anchors are all that is spoken of before the quorum. -/
theorem State.SilentOn.steered {k : Fin 27} (labels : k ≠ 21 ∧ k ≠ 22 ∧ k ≠ 23) (anchors : k ≠ 19 ∧ k ≠ 20) :
    State.SilentOn k s s.steered := by
  refine (State.SilentOn.examineLabels s s.contributors labels).trans (.raiseAll rfl fun n mem => ?_)
  rcases State.kind_of_mem_steer mem with h | h <;> rw [h]
  · exact anchors.1
  · exact anchors.2

theorem State.steered_reports {n : Notice} (said : n ∈ ((s.examineLabels s.contributors).steer s.contributors).2) :
    Reports s s.steered n := by
  have enables := (State.SilentOn.examineLabels (k := 0) s s.contributors (by decide)).enables
  rcases steering_notices (agreementLimit := (s.examineLabels s.contributors).config.agreementLimit)
    (captureLimit := (s.examineLabels s.contributors).config.captureLimit)
    (steerLimit := (s.examineLabels s.contributors).config.steerLimit)
    (offsets := (s.examineLabels s.contributors).anchorOffsets s.contributors) with none | ⟨m, one, -⟩
  · rw [State.steer, none] at said
    cases said
  · rw [State.steer, one] at said
    obtain rfl := List.mem_singleton.mp said
    rw [State.steered, State.steer, one]
    exact (Reports.raiseAll [] n (List.forall_mem_nil _) _).before enables

theorem State.agreementPoint_agreed (agreed : s.station.state = .agreed) : s.agreementPoint =
    s.steered.pointAgreed ((s.examineLabels s.contributors).steer s.contributors).1 := by
  have contributors : (s.examineLabels s.contributors).contributors = s.contributors :=
    (State.agreement_reads (by simp) (by simp) (by simp) (by simp)).1
  have steers : (s.examineLabels s.contributors).steers = true := by simp [State.steers, agreed]
  simp only [State.agreementPoint, agreed, steers, if_true, contributors]
  exact if_pos (by simp [agreed])

end

section
variable {s : State} {steer : Int}

theorem State.pointAgreed_short (short : s.quorum = false) : s.pointAgreed steer = s.shortAgreed steer :=
  if_neg (by rw [short]; exact Bool.false_ne_true)

theorem State.quorum_of_agreed (agreed : s.station.state = .agreed) :
    s.quorum = decide (s.config.quorum ≤ s.contributors.length) := by
  simp only [State.quorum, agreed]

/-- A short round that is not the eighth (R36, R94). -/
theorem State.shortAgreed_few (few : s.agreement.shortRounds < 7) : s.shortAgreed steer = s.countShort.steerOnly steer := by
  refine if_neg ?_
  simp only [State.steerOnly_agreement, State.countShort, State.setAgreement_agreement]
  omega

theorem State.shortAgreed_eighth (many : 7 ≤ s.agreement.shortRounds) :
    s.shortAgreed steer = (s.countShort.steerOnly steer).enterIsolated .quorum := by
  refine if_pos ?_
  simp only [State.steerOnly_agreement, State.countShort, State.setAgreement_agreement]
  omega

theorem State.countShort_agreement :
    s.countShort.agreement = { s.agreement with shortRounds := min 255 (s.agreement.shortRounds + 1) } := rfl

theorem State.steerOnly_keeps : (s.steerOnly steer).discipline.clock = s.discipline.clock ∧
    (s.steerOnly steer).discipline.rate = s.discipline.rate := by
  unfold State.steerOnly State.chooseSlew
  (repeat' split) <;> exact ⟨rfl, rfl⟩

end

section
variable (c : Cause) (s : State)

theorem State.enterIsolated_station : (s.enterIsolated c).station = (s.move .isolated c).station := by
  simp [State.enterIsolated]

theorem State.enterIsolated_reports : Reports s (s.enterIsolated c) (.stateChanged .isolated c) :=
  (State.move_reports .isolated c s).after (by simp [State.enterIsolated])

theorem State.enterIsolated_mode : (s.enterIsolated c).link.mode = .windowed := by
  rw [State.enterIsolated, State.openOccasion_link]
  exact State.move_mode ..

theorem State.enterIsolated_owed : (s.enterIsolated c).link.owedRoundEnd = s.link.owedRoundEnd := by
  simp [State.enterIsolated]

end

/-! ### The discipline rules as one statement -/

/-- What an integration makes of the discipline and says (R95, R96, R99). -/
theorem State.integrate_spec (e : Int) (s : State) : let rate := max (-100000) (min 100000 (s.discipline.rate + Int.tdiv (e * 125) 64))
    (s.integrate e).discipline = { s.discipline with rate := rate, holdoverValue := rate, band := bandOf rate } ∧
    (rate = 100000 ∨ rate = -100000 → Reports s (s.integrate e) (.rateLimit rate)) ∧
    (bandOf rate ≠ s.discipline.band →
      Reports s (s.integrate e) (.rateBand (bandOf rate) (decide (s.discipline.band < bandOf rate)))) := by
  intro rate
  have integrates : integrated s.discipline.rate e = rate := integrated_eq ..
  rw [← integrates]
  exact ⟨State.integrate_discipline .., fun limit => State.integrate_reports_limit _ _ (by omega),
    State.integrate_reports_band _ _⟩

theorem State.beforeJoiningStep_eq_false {s : State} (h : ¬(s.station.state = .joining ∧ s.discipline.joiningStepTaken = false)) :
    s.beforeJoiningStep = false :=
  Bool.eq_false_iff.mpr fun k => h (State.beforeJoiningStep_iff.mp k)

theorem State.stepNoticed_zero (o : StepOrigin) (s : State) : s.stepNoticed o 0 = s.stepClock 0 := if_pos rfl

theorem State.stepClock_zero {s : State} {c : Nat} (clock : s.discipline.clock = some c) :
    s.stepClock 0 = s.setDiscipline { s.discipline with slew := none } := by
  simp only [State.stepClock, clock, if_true]

theorem State.stepNoticed_of_clock {s : State} {c : Nat} (o : StepOrigin) (e : Int) (clock : s.discipline.clock = some c) :
    (s.stepNoticed o e).discipline = { s.discipline with
      clock := some (if e = 0 then c else clampUnits (c + e * 1000000000)), slew := none } :=
  (State.stepNoticed_discipline o e s).trans (State.stepClock_discipline e clock)

theorem slew_of_steer (held : Option Slew) (c : Nat) (x : Int) : (if x = 0 then held else slewFrom c x) =
    if x = 0 then held else some ⟨x, 0, (c / 1000000000 / 8000000 + 1) * 8000000 * 1000000000⟩ :=
  ite_congr rfl (fun _ => rfl) fun nonzero => if_neg nonzero

/-- Settles O45: the rows of R88 in order, then the steering term, then the short round of AGREED. -/
theorem disciplineRows : Obligations.DisciplineRows := by
  refine ⟨fun r => rfl, ?rows, ?steering, ?short⟩
  case rows =>
    intro e steer marked s c t d first slewOf rate bound smoothed stepped clock
    have reading : s.discipline.clock = some c := clock
    refine ⟨fun first => ?joining, fun later beyond => ?beyond, fun later within large => ?large,
      fun later within small => ⟨fun restarts => ?restart, fun settled unmarked near => ?dead, fun settled unmarked far => ?smooth⟩⟩
    case joining =>
      have row : t = _ := State.applyRules_joiningStep (State.beforeJoiningStep_iff.mpr first)
      have moved := State.stepNoticed_of_clock (s := s.setDiscipline { s.discipline with
        restart := s.config.restartRounds, coastMark := false, joiningStepTaken := true }) .joining e reading
      rw [← row] at moved
      refine ⟨by rw [moved]; rfl, by rw [moved]; rfl, by rw [moved]; rfl, by rw [moved]; rfl, fun zero => ⟨?_, ?_, ?_⟩,
        fun nonzero => ⟨?_, ?_, ?_⟩⟩
      · rw [moved, zero]; rfl
      · rw [moved]
      · rw [row, zero, State.stepNoticed_zero, State.stepClock_zero (s := s.setDiscipline { s.discipline with
          restart := s.config.restartRounds, coastMark := false, joiningStepTaken := true }) reading]
        rfl
      · rw [moved, if_neg nonzero]
      · rw [moved]
      · rw [row]
        exact (State.stepNoticed_reports _ _ _ nonzero).before rfl
    case beyond =>
      exact (State.applyRules_beyondM (State.beforeJoiningStep_eq_false later) beyond).trans
        (State.steerOnly_of_clock reading steer)
    case large =>
      have row : t = _ := State.applyRules_largeStep (State.beforeJoiningStep_eq_false later) within large
      have nonzero : e ≠ 0 := by omega
      have moved := State.stepNoticed_of_clock (s := s.setDiscipline { s.discipline with
        restart := s.config.restartRounds, coastMark := false }) .estimate e reading
      rw [← row, if_neg nonzero] at moved
      refine ⟨moved, ?_⟩
      rw [row]
      exact (State.stepNoticed_reports _ _ _ nonzero).before rfl
    case restart =>
      have row : t = _ := State.applyRules_restartSlew (State.beforeJoiningStep_eq_false later) within small restarts
      rw [State.chooseSlew_of_clock (s := s.setDiscipline { s.discipline with
        restart := s.discipline.restart - 1, coastMark := false }) reading] at row
      obtain ⟨moved, limit, band⟩ := State.integrate_spec e ((s.setDiscipline { s.discipline with
        restart := s.discipline.restart - 1, coastMark := false }).setDiscipline { s.discipline with
          restart := s.discipline.restart - 1, coastMark := false, slew := slewFrom c (e + steer) })
      rw [row]
      exact ⟨moved, fun at_limit => (limit at_limit).before rfl, fun changes => (band changes).before rfl⟩
    case dead =>
      exact (State.applyRules_deadBand (State.beforeJoiningStep_eq_false later) within small settled unmarked near).trans
        (State.steerOnly_of_clock reading steer)
    case smooth =>
      have row : t = _ := State.applyRules_smoothed (State.beforeJoiningStep_eq_false later) within small settled unmarked far
      rw [State.chooseSlew_of_clock reading] at row
      obtain ⟨moved, limit, band⟩ := State.integrate_spec e (s.setDiscipline { s.discipline with
        slew := slewFrom c (smoothedSlew s.config.smoothing s.config.slewLimit e + steer) })
      rw [row]
      refine ⟨moved.trans ?_, fun at_limit => (limit at_limit).before rfl, fun changes => (band changes).before rfl⟩
      have amount : smoothedSlew s.config.smoothing s.config.slewLimit e = smoothed := by
        simp only [smoothedSlew, bounded, smoothed, bound]
        push_cast
        rfl
      rw [amount]
      rfl
  case steering =>
    intro s contributors x offsets
    have steers : x = steering s.config.agreementLimit s.config.captureLimit s.config.steerLimit offsets := rfl
    refine ⟨fun none => by rw [steers, none, steering_nil], fun sorted least median greatest perm ordered first middle last => ?_⟩
    rw [← insertionSort_eq perm ordered] at first middle last
    refine ⟨fun wide => ?_, fun close far => ?_, fun close near => ?_⟩
    · rw [steers, steering_split first last wide]
    · rw [steers, steering_far first middle last close far]
    · rw [steers, steering_near first middle last close near]
      rfl
  case short =>
    intro s c x t slew clock agreed few
    have steers : (s.examineLabels s.contributors).steer s.contributors = x := State.steer_examineLabels ..
    obtain ⟨contributors, -, -, quorum, -, config⟩ := s.steered_reads
    obtain ⟨station, discipline, agreement, -⟩ := s.steered_frame
    have point : t = s.steered.shortAgreed x.1 := by
      rw [show t = s.agreementPoint from rfl, State.agreementPoint_agreed s agreed, steers, State.pointAgreed_short]
      rw [quorum, State.quorum_of_agreed agreed]
      simpa using few
    have held : s.steered.countShort.discipline.clock = some c := by
      rw [State.countShort_discipline, discipline, clock]
    have slews := State.steerOnly_of_clock held x.1
    rcases lt_or_ge s.steered.agreement.shortRounds 7 with early | late
    · rw [State.shortAgreed_few early] at point
      rw [point]
      refine ⟨by rw [slews, State.countShort_discipline, discipline, slew_of_steer]; rfl, fun n said => ?_⟩
      exact (State.steered_reports s (by rwa [steers])).after (by simp)
    · rw [State.shortAgreed_eighth late] at point
      rw [point]
      refine ⟨by rw [State.enterIsolated_discipline, slews, State.countShort_discipline, discipline, slew_of_steer]; rfl, fun n said => ?_⟩
      refine (State.steered_reports s (by rwa [steers])).after ?_
      have silent : n.kind ≠ 1 := by rcases State.kind_of_mem_steer said with h | h <;> rw [h] <;> decide
      simp only [State.enterIsolated, State.openOccasion_notices]
      exact (State.SilentOn.move _ _ _ silent).record.trans (by simp)

/-! ### The quorum lost (R36, R71) -/

theorem exec_quorum (dt : Elapsed) (s : State) : exec (.quorum dt) s =
    .next ((s.elapse dt).roundEndTo fun index t => t.losesQuorum index) := rfl

theorem State.controlClose_of_agreement {s : State} (h : s.station.state = .agreed ∨ s.station.state = .isolated ∨
    s.station.state = .withdrawing) : s.controlClose = s := by
  rcases h with h | h | h <;> simp only [State.controlClose, h]

/-- Settles O39. -/
theorem quorumLost : Obligations.QuorumLost := by
  intro dt s index u c due agreed settled few
  have station : c.station = u.station := by simp only [c, State.closeTable_station, State.signal_station]
  have config : c.config = u.config := by simp only [c, State.closeTable_config, State.signal_config]
  have closes : u.closeRound index = c := State.controlClose_of_agreement (.inl (station ▸ agreed))
  have link : c.link = (u.signal index).link := State.closeTable_link _
  have frame : c.discipline = u.discipline ∧ c.agreement = u.agreement ∧ c.source = u.source ∧
      c.gens = u.gens ∧ c.timecode = u.timecode := by simp [c]
  have silent : State.SilentOn 1 u c := State.SilentOn.closed u index (by decide)
  have goes : exec (.roundEnd dt) s = .next (u.roundEnd index) := exec_roundEnd_due due
  have owed : c.link.owedRoundEnd = none := (State.closeTable_signal_owed u index).trans settled
  clear_value c
  obtain ⟨discipline, agreement, source, gens, timecode⟩ := frame
  have here : c.station.state = .agreed := station ▸ agreed
  have short : c.quorum = false := by
    rw [State.quorum_of_agreed here, config]
    simpa using few
  obtain ⟨-, -, -, quorum, -, -⟩ := c.steered_reads
  obtain ⟨station', discipline', agreement', peers', link', source', gens', timecode'⟩ := c.steered_frame
  generalize hx : ((c.examineLabels c.contributors).steer c.contributors).1 = steer at *
  have point : c.agreementPoint = c.steered.shortAgreed steer := by
    rw [State.agreementPoint_agreed c here, hx, State.pointAgreed_short (quorum.trans short)]
  obtain ⟨clock, rate⟩ := State.steerOnly_keeps (s := c.steered.countShort) (steer := steer)
  rw [State.countShort_discipline, discipline', discipline] at clock rate
  have counted : c.steered.countShort.agreement =
      { u.agreement with shortRounds := min 255 (u.agreement.shortRounds + 1) } := by
    rw [State.countShort_agreement, agreement', agreement]
  have ends (t : State) (short : c.steered.shortAgreed steer = t) (still : t.link.owedRoundEnd = none) :
      exec (.roundEnd dt) s = .next t ∧ u.roundEnd index = t := by
    have whole : u.roundEnd index = t := by
      rw [State.roundEnd_eq, closes, point, short, State.settleOwed_none still]
    exact ⟨by rw [goes, whole], whole⟩
  rcases lt_or_ge u.agreement.shortRounds 7 with early | late
  · have stays := State.shortAgreed_few (s := c.steered) (steer := steer) (by rw [agreement', agreement]; exact early)
    refine ⟨_, (ends _ stays (by simp [link', owed])).1, ?_, ?_, rate, clock, ?_, ?_, ?_, fun _ => ⟨?_, ?_⟩,
      fun late => absurd late early.not_ge⟩
    · rw [State.steerOnly_agreement, counted]
    · simp [peers']
    · simp [source', source]
    · simp [gens', gens]
    · simp [timecode', timecode]
    · simp [station', station]
    · simp [link', link]
  · have leaves := State.shortAgreed_eighth (s := c.steered) (steer := steer) (by rw [agreement', agreement]; exact late)
    obtain ⟨roundEnd, whole⟩ := ends _ leaves (by rw [State.enterIsolated_owed]; simp [link', owed])
    have named : u.losesQuorum index = true := by
      simp only [State.losesQuorum, closes, here, short, agreement, decide_true, Bool.not_false, Bool.and_true, Bool.true_and,
        decide_eq_true_eq]
      omega
    have moved := (State.enterIsolated_station .quorum (c.steered.countShort.steerOnly steer)).trans (State.move_station ..)
    refine ⟨_, roundEnd, ?_, ?_, ?_, ?_, ?_, ?_, ?_, fun early => absurd late early.not_ge, fun _ => ⟨?_, ?_, ?_, ?_, ?_⟩⟩
    · rw [State.enterIsolated_agreement, State.steerOnly_agreement, counted]
    · simp [peers']
    · rw [State.enterIsolated_discipline, rate]
    · rw [State.enterIsolated_discipline, clock]
    · simp [source', source]
    · simp [gens', gens]
    · simp [timecode', timecode]
    · rw [exec_quorum, show (s.elapse dt).roundEndTo _ = _ from State.roundEndTo_of_named due named]
      exact congrArg Host.Outcome.next whole
    · rw [moved]
    · have spoken : State.SilentOn 1 u (c.steered.countShort.steerOnly steer) :=
        (silent.trans (State.SilentOn.steered c (by decide) (by decide))).trans (.of_notices (by simp))
      exact spoken.before (State.enterIsolated_reports _ _)
    · exact State.enterIsolated_mode _ _
    · rw [moved]
      simp [FaultReason.after, station', station]

end Sys2Proof.Machine
end

section
/-! PROOFS. The agreement point of AGREED with quorum: in the majority (R36, R74, R75) and in the minority (R76 to R78). -/

namespace Sys2Proof.Machine

/-! ### The round close that an agreement point follows (R54) -/

/-- What the close of the table leaves of the station, which the agreement point goes on from. -/
structure State.TableClosed (index : Option Nat) (u c : State) : Prop where
  station : c.station = u.station
  config : c.config = u.config
  link : c.link = (u.signal index).link
  owed : c.link.owedRoundEnd = u.link.owedRoundEnd
  discipline : c.discipline = u.discipline
  agreement : c.agreement = u.agreement
  anchor : c.anchor = u.anchor
  source : c.source = u.source
  gens : c.gens = u.gens
  silent : ∀ k : Fin 27, k ≠ 9 ∧ k ≠ 10 ∧ k ≠ 11 ∧ k ≠ 12 → State.SilentOn k u c

theorem State.tableClosed (index : Option Nat) (u : State) : u.TableClosed index (u.signal index).closeTable where
  station := by simp only [State.closeTable_station, State.signal_station]
  config := by simp only [State.closeTable_config, State.signal_config]
  link := State.closeTable_link _
  owed := State.closeTable_signal_owed u index
  discipline := by simp
  agreement := by simp
  anchor := by simp
  source := by simp
  gens := by simp
  silent := fun _ other => State.SilentOn.closed u index other

/-- A round end whose agreement point owes none in turn. -/
theorem State.roundEnd_of_settled {u c t : State} {index : Option Nat} (closes : u.closeRound index = c)
    (point : c.agreementPoint = t) (settled : t.link.owedRoundEnd = none) : u.roundEnd index = t := by
  rw [State.roundEnd_eq, closes, point, State.settleOwed_none settled]

/-! ### An estimate in AGREED (R74, R75) -/

/-- The agreement record after an estimate with `n` disagreements in a row (R71, R73, R75). -/
def State.recordedWith (s : State) (n : Nat) : State :=
  s.setAgreement ⟨some s.estimate, some (spreadOf s.deviationList), 0, n⟩

theorem State.recordedWith_frame (s : State) (n : Nat) : (s.recordedWith n).station = s.station ∧
    (s.recordedWith n).peers = s.peers ∧ (s.recordedWith n).link = s.link ∧ (s.recordedWith n).discipline = s.discipline ∧
    (s.recordedWith n).source = s.source ∧ (s.recordedWith n).gens = s.gens ∧ (s.recordedWith n).config = s.config :=
  ⟨rfl, rfl, rfl, rfl, rfl, rfl, rfl⟩

/-- The station with its estimate recorded, label notices and anchor figure taken, against the one the close has left. -/
theorem State.steered_recordedWith_frame (s : State) (n : Nat) : (s.steered.recordedWith n).station = s.station ∧
    (s.steered.recordedWith n).peers = s.peers ∧ (s.steered.recordedWith n).link = s.link ∧
    (s.steered.recordedWith n).discipline = s.discipline ∧ (s.steered.recordedWith n).source = s.source ∧
    (s.steered.recordedWith n).gens = s.gens ∧ (s.steered.recordedWith n).config = s.config := by
  obtain ⟨station, peers, link, discipline, source, gens, config⟩ := s.steered.recordedWith_frame n
  obtain ⟨station', discipline', -, peers', link', source', gens', -⟩ := s.steered_frame
  obtain ⟨-, -, -, -, -, config'⟩ := s.steered_reads
  exact ⟨station.trans station', peers.trans peers', link.trans link', discipline.trans discipline',
    source.trans source', gens.trans gens', config.trans config'⟩

theorem State.steerOnly_discipline (steer : Int) (s : State) : (s.steerOnly steer).discipline =
    { s.discipline with slew := (s.steerOnly steer).discipline.slew } := by
  unfold State.steerOnly State.chooseSlew
  (repeat' split) <;> rfl

section
variable {s : State} {e steer : Int}

theorem State.recordEstimate_compareM (e : Int) (s : State) : s.recordEstimate.compareM e =
    s.recordedWith (if s.config.maxStep < e.natAbs then min 3 (s.agreement.disagreements + 1) else 0) := by
  have config : s.recordEstimate.config = s.config := rfl
  simp only [State.compareM, State.beyondM, config, decide_eq_true_eq]
  rfl

theorem State.takeAgreed_within (within : e.natAbs ≤ s.config.maxStep) :
    s.recordEstimate.takeAgreed e steer = (s.recordedWith 0).applyRules e false steer := by
  have unmarked : s.recordEstimate.beyondM e = false := decide_eq_false within.not_gt
  rw [State.takeAgreed, State.recordEstimate_compareM, unmarked, if_neg within.not_gt]
  refine if_neg ?_
  rw [State.applyRules_agreement]
  exact (by decide : ¬3 ≤ 0)

theorem State.takeAgreed_beyond (beyond : s.config.maxStep < e.natAbs) (early : s.agreement.disagreements < 2) :
    s.recordEstimate.takeAgreed e steer =
      (s.recordedWith (s.agreement.disagreements + 1)).applyRules e true steer := by
  have marked : s.recordEstimate.beyondM e = true := decide_eq_true beyond
  rw [State.takeAgreed, State.recordEstimate_compareM, marked, if_pos beyond, min_eq_right (by omega)]
  refine if_neg ?_
  rw [State.applyRules_agreement]
  exact early.not_ge ∘ Nat.le_of_succ_le_succ

theorem State.takeAgreed_third (beyond : s.config.maxStep < e.natAbs) (late : 2 ≤ s.agreement.disagreements) :
    s.recordEstimate.takeAgreed e steer = ((s.recordedWith 3).applyRules e true steer).enterJoining .disagree := by
  have marked : s.recordEstimate.beyondM e = true := decide_eq_true beyond
  rw [State.takeAgreed, State.recordEstimate_compareM, marked, if_pos beyond, min_eq_left (by omega)]
  refine if_pos ?_
  rw [State.applyRules_agreement]
  exact le_refl 3

theorem State.pointAgreed_majority (quorum : s.quorum = true) (majority : s.minority = false) :
    s.pointAgreed steer = s.recordEstimate.takeAgreed s.estimate steer := by
  rw [State.pointAgreed, if_pos quorum, if_neg (by rw [majority]; exact Bool.false_ne_true)]

theorem State.pointAgreed_minority (quorum : s.quorum = true) (minority : s.minority = true) :
    s.pointAgreed steer = s.recordEstimate.merge := by
  rw [State.pointAgreed, if_pos quorum, if_pos minority]

end

theorem exec_disagree (dt : Elapsed) (s : State) : exec (.disagree dt) s =
    .next ((s.elapse dt).roundEndTo fun index t => t.disagrees index) := rfl

/-- Settles O40: by the estimate against M, and beyond it by the disagreements before. -/
theorem thirdDisagreementRejoins : Obligations.ThirdDisagreementRejoins := by
  intro dt s index u c e x steering recorded due agreed settled enough majority
  have closed : u.TableClosed index c := u.tableClosed index
  have closes : u.closeRound index = c := State.controlClose_of_agreement (.inl (closed.station ▸ agreed))
  have goes : exec (.roundEnd dt) s = .next (u.roundEnd index) := exec_roundEnd_due due
  have here : c.station.state = .agreed := closed.station ▸ agreed
  have quorum : c.quorum = true := by
    rw [State.quorum_of_agreed here, closed.config]
    exact decide_eq_true enough
  obtain ⟨-, deviations, estimate, quorum', minority', config⟩ := c.steered_reads
  obtain ⟨-, -, agreement', -⟩ := c.steered_frame
  have records (n : Nat) : recorded n = c.steered.recordedWith n := by
    rw [State.recordedWith, estimate, deviations]; rfl
  have frame (n : Nat) : (recorded n).station = u.station ∧ (recorded n).peers = c.peers ∧ (recorded n).link = c.link ∧
      (recorded n).discipline = u.discipline ∧ (recorded n).source = u.source ∧ (recorded n).gens = u.gens ∧
      (recorded n).config = u.config := by
    rw [records]
    obtain ⟨station, peers, link, discipline, source, gens, config⟩ := c.steered_recordedWith_frame n
    exact ⟨station.trans closed.station, peers, link, discipline.trans closed.discipline, source.trans closed.source,
      gens.trans closed.gens, config.trans closed.config⟩
  have later (n : Nat) : (recorded n).beforeJoiningStep = false := State.beforeJoiningStep_eq_false fun h => by
    rw [(frame n).1, agreed] at h
    exact StationState.noConfusion h.1
  have point : c.agreementPoint = c.steered.recordEstimate.takeAgreed e steering.1 := by
    rw [State.agreementPoint_agreed c here, State.pointAgreed_majority (quorum'.trans quorum) (minority'.trans majority), estimate]
    rfl
  have maxStep : c.steered.config.maxStep = u.config.maxStep := by rw [config, closed.config]
  have disagreements : c.steered.agreement.disagreements = u.agreement.disagreements := by rw [agreement', closed.agreement]
  clear_value c x steering recorded
  refine ⟨fun within => ?within, fun beyond => ?beyond⟩
  case within =>
    rw [State.takeAgreed_within (by rwa [maxStep]), ← records] at point
    intro t
    refine ⟨by rw [goes, State.roundEnd_eq, closes, point], fun small => ?_⟩
    obtain ⟨station, peers, link, discipline, source, gens, config⟩ := frame 0
    obtain ⟨slews, clock, -⟩ := State.applyRules_of_slew (later 0) (steer := steering.1) (marked := false) (.inr (by rwa [config]))
    have links : t.link = c.link := (congrArg State.link slews).trans link
    refine ⟨?_, (congrArg State.station slews).trans station, (congrArg State.peers slews).trans peers, links.trans closed.link,
      clock.trans (by rw [discipline]), (State.applyRules_agreement ..).trans (by rw [records, State.recordedWith, estimate, deviations]; rfl),
      (congrArg State.source slews).trans source, (congrArg State.gens slews).trans gens⟩
    rw [goes, State.roundEnd_of_settled closes point (by rw [show _ = c.link from links, closed.owed, settled])]
  case beyond =>
    obtain ⟨y, hy⟩ : ∃ y : Nat → State, ∀ n, (recorded n).applyRules e true steering.1 = y n := ⟨_, fun _ => rfl⟩
    have rules (n : Nat) : y n = (recorded n).steerOnly steering.1 := (hy n).symm.trans (State.applyRules_beyondM (later n) rfl)
    have left (n : Nat) : (y n).station = u.station ∧ (y n).peers = c.peers ∧ (y n).link = c.link ∧
        (y n).discipline = { u.discipline with slew := (y n).discipline.slew } ∧ (y n).source = u.source ∧
        (y n).gens = u.gens ∧ (y n).agreement = ⟨some e, some (spreadOf c.deviationList), 0, n⟩ ∧ State.SilentOn 1 u (y n) := by
      obtain ⟨station, peers, link, discipline, source, gens, -⟩ := frame n
      rw [rules n]
      refine ⟨by simp [station], by simp [peers], by simp [link], (State.steerOnly_discipline ..).trans (by rw [discipline]),
        by simp [source], by simp [gens], (State.steerOnly_agreement ..).trans (by rw [records, State.recordedWith, estimate, deviations]; rfl), ?_⟩
      refine ((closed.silent 1 (by decide)).trans (State.SilentOn.steered _ (by decide) (by decide))).trans (.of_notices ?_)
      simp [records, State.recordedWith]
    rcases lt_or_ge u.agreement.disagreements 2 with early | late
    · obtain ⟨station, peers, link, discipline, source, gens, agreement, -⟩ := left (u.agreement.disagreements + 1)
      rw [State.takeAgreed_beyond (by rwa [maxStep]) (by rwa [disagreements]), disagreements, ← records, hy] at point
      refine ⟨_, ?_, ?_, ?_, ?_, peers, ?_, ?_, ?_, ?_, source, gens, fun _ => ⟨(hy _).symm, station, ?_⟩,
        fun late => absurd late early.not_ge⟩
      · rw [goes, State.roundEnd_of_settled closes point (by rw [link, closed.owed, settled])]
      · rw [agreement]
      · rw [agreement]
      · rw [agreement]
      · rw [discipline]
      · rw [discipline]
      · rw [discipline]
      · rw [discipline]
      · rw [agreement]
    · obtain ⟨station, peers, link, discipline, source, gens, agreement, silent⟩ := left 3
      rw [State.takeAgreed_third (by rwa [maxStep]) (by rwa [disagreements]), ← records, hy] at point
      have whole : u.roundEnd index = (y 3).enterJoining .disagree :=
        State.roundEnd_of_settled closes point (by rw [((y 3).enterJoining_link .disagree).2.2, link, closed.owed, settled])
      have named : u.disagrees index = true := by
        have marked : c.beyondM c.estimate = true := decide_eq_true (by rw [closed.config]; exact beyond)
        simp only [State.disagrees, closes, here, quorum, majority, marked, closed.agreement, decide_true, Bool.not_false,
          Bool.and_self, Bool.true_and, decide_eq_true_eq]
        omega
      have entered := ((y 3).enterJoining_discipline .disagree).trans (by rw [discipline])
      have joining := ((y 3).enterJoining_station .disagree).trans (by rw [State.move_station])
      refine ⟨_, by rw [goes, whole], ?_, ?_, ?_, ?_, ?_, ?_, ?_, ?_, ?_, ?_, fun early => absurd late early.not_ge,
        fun _ => ⟨?_, ?_, silent.before ((y 3).enterJoining_reports .disagree), ?_, ?_, ?_, ?_⟩⟩
      · rw [State.enterJoining_agreement, agreement]
      · rw [State.enterJoining_agreement, agreement]
      · rw [State.enterJoining_agreement]
      · rw [State.enterJoining_peers, peers]
      · rw [entered]
      · rw [entered]
      · rw [entered]
      · rw [entered]
      · rw [State.enterJoining_source, source]
      · rw [State.enterJoining_gens, gens]
      · rw [exec_disagree, show (s.elapse dt).roundEndTo _ = _ from State.roundEndTo_of_named due named]
        exact congrArg Host.Outcome.next whole
      · rw [joining]
      · rw [State.enterJoining_agreement]
      · rw [hy, State.enterJoining_discipline]
      · rw [joining]
      · rw [joining]

end Sys2Proof.Machine
end

section
/-! PROOFS. The merge test (R76, R77) and the exchange of groups (R61, R78). -/

namespace Sys2Proof.Machine

/-! ### The merge test (R76, R77) -/

theorem PeerEntry.strays_iff {p : PeerEntry} : p.strays = true ↔ p.state = .excluded ∧ p.delay.isSome = true ∧
    p.resultObservation = .wild ∧ p.resultDeviation.isSome = true ∧
      (p.peerState = some .agreed ∨ p.peerState = some .isolated) := by
  simp [PeerEntry.strays, and_assoc]

theorem PeerTable.mem_deviations {t : PeerTable} {is : List (Fin 32)} {x : Int} :
    x ∈ t.deviations is ↔ ∃ i ∈ is, (t.entries[i]).resultDeviation = some x := List.mem_filterMap

/-- A sorted list lies within a limit exactly where no two of its values differ by more. -/
theorem extent_le_iff {l : List Int} {limit : Int} (some_ : l ≠ []) : extent (l.insertionSort (· ≤ ·)) ≤ limit ↔
    ∀ x ∈ l, ∀ y ∈ l, x - y ≤ limit := by
  have mem (x : Int) : x ∈ l.insertionSort (· ≤ ·) ↔ x ∈ l := List.mem_insertionSort _
  have nonempty : l.insertionSort (· ≤ ·) ≠ [] := fun none => some_ (by simpa using congrArg List.length none)
  constructor
  · exact fun close x hx y hy => (sub_le_extent (List.pairwise_insertionSort _ l) ((mem x).mpr hx) ((mem y).mpr hy)).trans close
  · intro close
    obtain ⟨x, hx, y, hy, extent⟩ := extent_attained nonempty
    exact extent ▸ close x ((mem x).mp hx) y ((mem y).mp hy)

section
variable {s : State}

theorem State.mem_otherGroup {i : Fin 32} : i ∈ s.otherGroup ↔ (s.peers.entries[i]).strays = true := by
  simp [State.otherGroup]

theorem State.mergeApplies_iff : s.mergeApplies = true ↔ s.otherGroup ≠ [] ∧
    ∀ i ∈ s.otherGroup, ∀ j ∈ s.otherGroup, ∀ x y, (s.peers.entries[i]).resultDeviation = some x →
      (s.peers.entries[j]).resultDeviation = some y → x - y ≤ 2 * s.config.window := by
  simp only [State.mergeApplies, Bool.and_eq_true, Bool.not_eq_true', List.isEmpty_eq_false_iff, decide_eq_true_eq]
  refine and_congr_right fun others => ?_
  have deviates : s.peers.deviations s.otherGroup ≠ [] := by
    obtain ⟨i, mem⟩ := List.exists_mem_of_ne_nil _ others
    obtain ⟨-, -, -, isSome, -⟩ := PeerEntry.strays_iff.mp (State.mem_otherGroup.mp mem)
    obtain ⟨x, deviation⟩ := Option.isSome_iff_exists.mp isSome
    exact List.ne_nil_of_mem (PeerTable.mem_deviations.mpr ⟨i, mem, deviation⟩)
  rw [extent_le_iff deviates]
  constructor
  · exact fun close i hi j hj x y hx hy =>
      close x (PeerTable.mem_deviations.mpr ⟨i, hi, hx⟩) y (PeerTable.mem_deviations.mpr ⟨j, hj, hy⟩)
  · intro close x hx y hy
    obtain ⟨i, hi, hx⟩ := PeerTable.mem_deviations.mp hx
    obtain ⟨j, hj, hy⟩ := PeerTable.mem_deviations.mp hy
    exact close i hi j hj x y hx hy

/-- The lowest slot of both groups is the other's where one of its slots lies below all of ours. -/
theorem State.otherHoldsLowest_iff : s.otherHoldsLowest = true ↔
    ∃ j ∈ s.otherGroup, j < s.config.slot ∧ ∀ i ∈ s.contributors, j < i := by
  simp only [State.otherHoldsLowest, List.all_cons, Bool.and_eq_true, List.all_eq_true, List.any_eq_true, decide_eq_true_eq]
  constructor
  · rintro ⟨⟨k, mem, lower⟩, all⟩
    obtain ⟨j, hj, least⟩ := s.otherGroup.toFinset.exists_min_image id ⟨k, List.mem_toFinset.mpr mem⟩
    have least (k : Fin 32) (hk : k ∈ s.otherGroup) : j ≤ k := least k (List.mem_toFinset.mpr hk)
    refine ⟨j, List.mem_toFinset.mp hj, (least k mem).trans_lt lower, fun i hi => ?_⟩
    obtain ⟨k, hk, lower⟩ := all i hi
    exact (least k hk).trans_lt lower
  · rintro ⟨j, mem, lower, all⟩
    exact ⟨⟨j, mem, lower⟩, fun i hi => ⟨j, mem, all i hi⟩⟩

theorem State.minority_iff : s.minority = true ↔ s.mergeApplies = true ∧
    (s.contributors.length + 1 < s.otherGroup.length ∨
      (s.otherGroup.length = s.contributors.length + 1 ∧ s.otherHoldsLowest = true)) := by
  simp [State.minority]

end

/-! ### The exchange (R61) -/

section
variable {t : PeerTable} {others own : List (Fin 32)} {i : Fin 32}

theorem PeerTable.exchange_get : (t.exchange others own).entries[i] =
    if others.contains i && (t.entries[i]).state == .excluded then (t.entries[i]).moveTo .counted
    else if own.contains i && (t.entries[i]).state == .counted then (t.entries[i]).moveTo .excluded
    else t.entries[i] := tabulate_get ..

theorem PeerTable.exchange_other (mem : i ∈ others) (excluded : (t.entries[i]).state = .excluded) :
    (t.exchange others own).entries[i] = (t.entries[i]).moveTo .counted := by
  rw [PeerTable.exchange_get]
  exact if_pos (Bool.and_eq_true_iff.mpr ⟨List.contains_iff_mem.mpr mem, beq_iff_eq.mpr excluded⟩)

theorem PeerTable.exchange_own (mem : i ∈ own) (counted : (t.entries[i]).state = .counted) :
    (t.exchange others own).entries[i] = (t.entries[i]).moveTo .excluded := by
  rw [PeerTable.exchange_get, if_neg fun h => EntryState.noConfusion
    ((beq_iff_eq.mp (Bool.and_eq_true_iff.mp h).2).symm.trans counted)]
  exact if_pos (Bool.and_eq_true_iff.mpr ⟨List.contains_iff_mem.mpr mem, beq_iff_eq.mpr counted⟩)

theorem PeerTable.exchange_apart (other : i ∉ others) (mine : i ∉ own) :
    (t.exchange others own).entries[i] = t.entries[i] := by
  rw [PeerTable.exchange_get, if_neg (by simp [other]), if_neg (by simp [mine])]

end

/-- A station that leaves its group for the other (R36, R61, R78). -/
structure State.Merges (s t : State) : Prop where
  station : t.station.state = .joining
  changed : Reports s t (.stateChanged .joining .merge)
  merged : Reports s t (.merged s.otherGroup.length (s.contributors.length + 1))
  peers : t.peers = s.peers.exchange s.otherGroup s.contributors
  agreement : t.agreement = { s.agreement with shortRounds := 0, disagreements := 0 }
  discipline : t.discipline = { s.discipline with joiningStepTaken := false }
  source : t.source = s.source
  gens : t.gens = s.gens
  owed : t.link.owedRoundEnd = s.link.owedRoundEnd

theorem State.merge_merges (s : State) : s.Merges s.merge where
  station := by rw [State.merge, State.raise_station, State.enterJoining_station, State.move_state]
  changed := (State.SilentOn.raise rfl (by decide : (1 : Fin 27) ≠ 7)).after
    (((s.setPeers _).enterJoining_reports .merge).before rfl)
  merged := (Reports.raise _ _).before (by simp [State.enterJoining, State.clearCounts])
  peers := by simp [State.merge]
  agreement := by rw [State.merge, State.raise_agreement, State.enterJoining_agreement]; rfl
  discipline := by rw [State.merge, State.raise_discipline, State.enterJoining_discipline]; rfl
  source := by simp [State.merge]
  gens := by simp [State.merge]
  owed := by rw [State.merge, State.raise_link, ((s.setPeers _).enterJoining_link .merge).2.2]; rfl

/-- Settles O42: the test, and the exchange it leads to in AGREED. -/
theorem minorityMerges : Obligations.MinorityMerges := by
  refine ⟨fun s => ⟨fun i => State.mem_otherGroup.trans PeerEntry.strays_iff, ?test⟩, ?outcome⟩
  case test =>
    rw [State.minority_iff, State.mergeApplies_iff, State.otherHoldsLowest_iff, and_assoc]
  case outcome =>
    intro dt s index u c due agreed settled enough minority
    have closed : u.TableClosed index c := u.tableClosed index
    have closes : u.closeRound index = c := State.controlClose_of_agreement (.inl (closed.station ▸ agreed))
    have goes : exec (.roundEnd dt) s = .next (u.roundEnd index) := exec_roundEnd_due due
    have here : c.station.state = .agreed := closed.station ▸ agreed
    have quorum : c.quorum = true := by
      rw [State.quorum_of_agreed here, closed.config]
      exact decide_eq_true enough
    clear_value c
    obtain ⟨contributors, deviations, -, quorum', minority', -⟩ := c.steered_reads
    obtain ⟨-, discipline', agreement', peers', link', source', gens', -⟩ := c.steered_frame
    have others : c.steered.recordEstimate.otherGroup = c.otherGroup := by
      simp [State.otherGroup, State.recordEstimate, peers']
    have own : c.steered.recordEstimate.contributors = c.contributors := contributors
    have point := State.agreementPoint_agreed c here
    rw [State.pointAgreed_minority (quorum'.trans quorum) (minority'.trans minority)] at point
    have merges := c.steered.recordEstimate.merge_merges
    have silent (k : Fin 27) (other : k = 1 ∨ k = 7) : State.SilentOn k u c.steered.recordEstimate := by
      rcases other with rfl | rfl
      · exact ((closed.silent 1 (by decide)).trans (.steered _ (by decide) (by decide))).trans (.of_notices rfl)
      · exact ((closed.silent 7 (by decide)).trans (.steered _ (by decide) (by decide))).trans (.of_notices rfl)
    have peers : c.steered.recordEstimate.peers = c.peers := peers'
    have whole := State.roundEnd_of_settled closes point (by
      rw [merges.owed, show c.steered.recordEstimate.link = c.link from link', closed.owed, settled])
    have exchanged := merges.peers
    rw [others, own, peers] at exchanged
    refine ⟨_, by rw [goes, whole], merges.station, (silent 1 (.inl rfl)).before merges.changed, ?_, fun i mem => ?_, fun i mem => ?_,
      fun i other mine => ?_, ?_, ?_, ?_, ?_⟩
    · have merged := (silent 7 (.inr rfl)).before merges.merged
      rwa [others, own] at merged
    · obtain ⟨excluded, -⟩ := PeerEntry.strays_iff.mp (State.mem_otherGroup.mp mem)
      rw [exchanged, PeerTable.exchange_other mem excluded]
      exact ⟨rfl, rfl, rfl, rfl⟩
    · obtain ⟨counted, -⟩ := PeerEntry.contributes_iff.mp (State.mem_contributors.mp mem)
      rw [exchanged, PeerTable.exchange_own mem counted]
      rfl
    · rw [exchanged, PeerTable.exchange_apart other mine]
    · rw [merges.agreement, ← deviations]
      rfl
    · rw [merges.discipline, ← closed.discipline, ← discipline']
      rfl
    · rw [merges.source, ← closed.source, ← source']
      rfl
    · rw [merges.gens, ← closed.gens, ← gens']
      rfl

end Sys2Proof.Machine
end

section
/-! PROOFS. The agreement point of JOINING: the joining step, settling, and the label offset taken with it (R33, R34, R74,
R89, R90). -/

namespace Sys2Proof.Machine

/-! ### The majority label offset (R34) -/

section
variable {s : State} {x : Int}

/-- An offset that more COUNTED entries report than any other is the one found. -/
theorem State.majorityOffset_of_most (voted : 0 < s.votes x) (most : ∀ y, y ≠ x → s.votes y < s.votes x) :
    s.majorityOffset = some x := by
  have reported : x ∈ (List.finRange 32).filterMap fun i : Fin 32 =>
      if (s.peers.entries[i]).state = .counted then (s.peers.entries[i]).labelOffset else none := by
    obtain ⟨i, mem⟩ := List.length_pos_iff_exists_mem.mp voted
    obtain ⟨-, votes⟩ := List.mem_filter.mp mem
    obtain ⟨counted, offset⟩ := Bool.and_eq_true_iff.mp votes
    refine List.mem_filterMap.mpr ⟨i, List.mem_finRange i, ?_⟩
    exact (if_pos (beq_iff_eq.mp counted)).trans (beq_iff_eq.mp offset)
  unfold State.majorityOffset
  dsimp only
  generalize (List.finRange 32).filterMap _ = offsets at reported ⊢
  cases found : offsets.find? fun x => offsets.all fun y => x == y || decide (s.votes y < s.votes x) with
  | none =>
    refine absurd (List.find?_eq_none.mp found x reported) (not_not.mpr (List.all_eq_true.mpr fun y _ => ?_))
    rcases eq_or_ne y x with rfl | other
    · simp
    · simp [most y other]
  | some y =>
    have beats := List.all_eq_true.mp
      (List.find?_some (p := fun x => offsets.all fun y => x == y || decide (s.votes y < s.votes x)) found) x reported
    rcases eq_or_ne y x with rfl | other
    · rfl
    · have lower : s.votes x < s.votes y := by simpa [other] using beats
      exact absurd (most y other) lower.not_gt

theorem State.takeMajorityOffset_anchor (voted : 0 < s.votes x) (most : ∀ y, y ≠ x → s.votes y < s.votes x)
    (apart : s.takeMajorityOffset.anchor.appliedAt ≠ some s.takeMajorityOffset.synthTime) :
    s.takeMajorityOffset.anchor.labelOffset = x := by
  simp only [State.takeMajorityOffset, State.majorityOffset_of_most voted most] at apart ⊢
  by_cases applied : s.anchor.appliedAt = some s.synthTime
  · rw [if_pos applied] at apart
    exact absurd applied apart
  · rw [if_neg applied]
    rfl

end

/-! ### The agreement point of JOINING (R33) -/

theorem exec_settled_eq (dt : Elapsed) (s : State) : exec (.settled dt) s =
    .next ((s.elapse dt).roundEndTo fun index t => t.settles index) := rfl

/-- A step moves the clock and leaves no slew; the rest of the discipline stays. -/
theorem State.stepNoticed_keeps (o : StepOrigin) (e : Int) (s : State) : (s.stepNoticed o e).discipline = { s.discipline with
    clock := (s.stepNoticed o e).discipline.clock, slew := (s.stepNoticed o e).discipline.slew } := by
  rw [State.stepNoticed_discipline]
  cases clock : s.discipline.clock with
  | none => rw [State.stepClock_of_invalid clock]
  | some c => rw [State.stepClock_discipline e clock]

section
variable {s : State}

/-- An entry that contributes is COUNTED, so a station with a contributor is not in silence. -/
theorem State.not_silent_of_contributors (some_ : s.contributors ≠ []) : ¬s.silent = true := by
  obtain ⟨i, mem⟩ := List.exists_mem_of_ne_nil _ some_
  obtain ⟨counted, -⟩ := PeerEntry.contributes_iff.mp (State.mem_contributors.mp mem)
  exact fun silent => (State.silent_iff.mp silent i).2 counted

theorem State.contributors_setSilence (s : State) (k : Nat) :
    (s.setStation { s.station with silenceCount := k }).contributors = s.contributors := rfl

/-- The quorum of JOINING is one contributor (R70). -/
theorem State.quorum_of_joining (joining : s.station.state = .joining) (some_ : s.contributors ≠ []) : s.quorum = true := by
  simp only [State.quorum, joining]
  exact decide_eq_true (List.length_pos_iff.mpr some_)

theorem State.pointJoining_first (quorum : s.quorum = true) (first : s.discipline.joiningStepTaken = false) :
    s.pointJoining = s.recordEstimate.applyRules s.estimate false 0 := by
  rw [State.pointJoining, if_pos quorum]
  exact if_neg (by rw [first]; exact Bool.false_ne_true)

theorem State.pointJoining_later (quorum : s.quorum = true) (taken : s.discipline.joiningStepTaken = true) :
    s.pointJoining = ((s.recordEstimate.applyRules s.estimate false 0).setStation
      { s.station with settleCount := settleAfter s.config.stepThreshold s.station.settleCount s.estimate }).settle := by
  rw [State.pointJoining, if_pos quorum]
  refine (if_pos taken).trans ?_
  rw [State.applyRules_station]
  rfl

theorem State.settle_of_few (few : s.station.settleCount < 4) : s.settle = s := if_neg few.not_ge

theorem State.settle_of_four (enough : 4 ≤ s.station.settleCount) :
    s.settle = (s.enterAgreed .settled).takeMajorityOffset := if_pos enough

end

/-- Rules without a step keep the table, the link and the generators. -/
theorem State.applyRules_keeps {e steer : Int} {marked : Bool} {s : State} (later : s.beforeJoiningStep = false)
    (slews : marked = true ∨ e.natAbs ≤ s.config.stepThreshold) : (s.applyRules e marked steer).peers = s.peers ∧
      (s.applyRules e marked steer).link = s.link ∧ (s.applyRules e marked steer).gens = s.gens ∧
      (s.applyRules e marked steer).discipline.clock = s.discipline.clock ∧ State.SilentOn 1 s (s.applyRules e marked steer) := by
  obtain ⟨frame, clock, silent⟩ := State.applyRules_of_slew (steer := steer) later slews
  exact ⟨(congrArg State.peers frame).trans rfl, (congrArg State.link frame).trans rfl, (congrArg State.gens frame).trans rfl,
    clock, silent⟩

/-- The station after a point of JOINING with its settle count at `n` (R33). -/
def State.countedTo (u w : State) (n : Nat) : State :=
  w.setStation { u.station with silenceCount := 0, settleCount := n }

/-- The station that has taken an estimate within H in JOINING, before it settles (R33, R74). -/
structure State.Settling (u c : State) (e : Int) (w : State) : Prop where
  station : w.station = { u.station with silenceCount := 0 }
  owed : w.link.owedRoundEnd = none
  peers : w.peers = c.peers
  source : w.source = u.source
  gens : w.gens = u.gens
  clock : w.discipline.clock = u.discipline.clock
  estimate : w.agreement.estimate = some e
  shortRounds : w.agreement.shortRounds = 0
  silent : State.SilentOn 1 u w

section
variable {u c w : State} {e : Int} (h : u.Settling c e w)


include h

theorem State.Settling.waits (early : u.station.settleCount < 3) :
    (u.countedTo w (u.station.settleCount + 1)).settle.settleOwed 2 = u.countedTo w (u.station.settleCount + 1) := by
  have few : (u.countedTo w (u.station.settleCount + 1)).settle = u.countedTo w (u.station.settleCount + 1) :=
    State.settle_of_few (by rw [State.countedTo, State.setStation_station]; exact Nat.succ_lt_succ early)
  rw [few]
  exact State.settleOwed_none h.owed

theorem State.Settling.agrees (late : 3 ≤ u.station.settleCount) : (u.countedTo w (u.station.settleCount + 1)).settle.settleOwed 2 =
    ((u.countedTo w (u.station.settleCount + 1)).enterAgreed .settled).takeMajorityOffset := by
  have four : (u.countedTo w (u.station.settleCount + 1)).settle = ((u.countedTo w (u.station.settleCount + 1)).enterAgreed .settled).takeMajorityOffset :=
    State.settle_of_four (by rw [State.countedTo, State.setStation_station]; exact Nat.succ_le_succ late)
  rw [four]
  refine State.settleOwed_none ?_
  rw [State.takeMajorityOffset_link, State.enterAgreed_owed]
  exact h.owed

/-- The fourth settled point: AGREED, the holdover record marked, and the label offset of the majority (R33, R34). -/
structure State.Settles (u c : State) (e : Int) (w t : State) : Prop where
  state : t.station.state = .agreed
  reports : Reports u t (.stateChanged .agreed .settled)
  discipline : t.discipline = { w.discipline with holdoverValue := w.discipline.rate, holdoverValid := true }
  clock : t.discipline.clock = u.discipline.clock
  estimate : t.agreement.estimate = some e
  shortRounds : t.agreement.shortRounds = 0
  disagreements : t.agreement.disagreements = 0
  peers : t.peers = c.peers
  source : t.source = u.source
  majority : ∀ x, 0 < c.votes x → (∀ y, y ≠ x → c.votes y < c.votes x) → t.anchor.appliedAt ≠ some t.synthTime →
    t.anchor.labelOffset = x

theorem State.Settling.settles (n : Nat) : u.Settles c e w ((u.countedTo w n).enterAgreed .settled).takeMajorityOffset := by
  have counted : (u.countedTo w n).discipline = w.discipline ∧ (u.countedTo w n).agreement = w.agreement ∧
      (u.countedTo w n).peers = w.peers ∧ (u.countedTo w n).source = w.source ∧
      (u.countedTo w n).notices = w.notices := ⟨rfl, rfl, rfl, rfl, rfl⟩
  generalize u.countedTo w n = v at counted
  obtain ⟨discipline, agreement, peers, source, notices⟩ := counted
  have table : (v.enterAgreed .settled).peers = c.peers := by rw [State.enterAgreed_peers, peers, h.peers]
  have votes (y : Int) : (v.enterAgreed .settled).votes y = c.votes y := by rw [State.votes, table, State.votes]
  have silent : State.SilentOn 1 u v := h.silent.trans (.of_notices notices)
  refine {
    state := by rw [State.takeMajorityOffset_station, State.enterAgreed_station, State.move_state]
    reports := (silent.before (v.enterAgreed_reports .settled)).after (by simp)
    discipline := by rw [State.takeMajorityOffset_discipline, State.enterAgreed_discipline, discipline]
    clock := by rw [State.takeMajorityOffset_discipline, State.enterAgreed_discipline, discipline, h.clock]
    estimate := by rw [State.takeMajorityOffset_agreement, State.enterAgreed_agreement, agreement, h.estimate]
    shortRounds := by rw [State.takeMajorityOffset_agreement, State.enterAgreed_agreement]
    disagreements := by rw [State.takeMajorityOffset_agreement, State.enterAgreed_agreement]
    peers := by rw [State.takeMajorityOffset_peers, table]
    source := by rw [State.takeMajorityOffset_source, State.enterAgreed_source, source, h.source]
    majority := fun x voted most apart => State.takeMajorityOffset_anchor (by rwa [votes]) (fun y other => ?_) apart }
  rw [votes, votes]
  exact most y other

end

/-- Settles O41: without a contributor; else the joining step, an estimate beyond H, and one within. -/
theorem fourthSettledPointAgrees : Obligations.FourthSettledPointAgrees := by
  intro dt s index u c votes e recorded w stepped due joining settled
  have closed : u.TableClosed index c := u.tableClosed index
  have here : c.station.state = .joining := closed.station ▸ joining
  have closes : u.closeRound index = c.countSilence := State.controlClose_joining here
  have goes : exec (.roundEnd dt) s = .next (u.roundEnd index) := exec_roundEnd_due due
  have owed : c.link.owedRoundEnd = none := closed.owed.trans settled
  have alone (none : c.contributors = []) (few : u.station.silenceCount + 1 < 16) : ∃ t, exec (.roundEnd dt) s = .next t ∧
      t.station.state = .joining ∧ t.station.settleCount = 0 ∧ t.discipline = u.discipline ∧
      t.agreement = { u.agreement with shortRounds := min 255 (u.agreement.shortRounds + 1) } := by
    rw [State.countSilence_stays (by rwa [closed.station])] at closes
    have point := State.agreementPoint_joining_short (s := c.setStation { c.station with
      silenceCount := if c.silent = true then c.station.silenceCount + 1 else 0 }) here ((c.contributors_setSilence _).trans none)
    obtain ⟨t, ht⟩ : ∃ t, t = u.roundEnd index := ⟨_, rfl⟩
    have whole := ht.trans (State.roundEnd_of_settled closes point owed)
    refine ⟨t, by rw [goes, ht], ?_, ?_, ?_, ?_⟩
    · rw [whole, State.setStation_station]
      exact here
    · rw [whole, State.setStation_station]
    · rw [whole, State.setStation_discipline, State.countShort_discipline, State.setStation_discipline, closed.discipline]
    · rw [whole, State.setStation_agreement, State.countShort_agreement, State.setStation_agreement, closed.agreement]
  obtain ⟨d, hd⟩ : ∃ d, d = c.setStation { u.station with silenceCount := 0 } := ⟨_, rfl⟩
  obtain ⟨x, hx⟩ : ∃ x, x = d.examineLabels c.contributors := ⟨_, rfl⟩
  have reads : d.contributors = c.contributors ∧ d.deviationList = c.deviationList := by
    have contributors : d.contributors = c.contributors := by
      rw [hd, ← closed.station]
      exact c.contributors_setSilence 0
    exact ⟨contributors, by simp only [State.deviationList, contributors]; rw [hd]; rfl⟩
  obtain ⟨contributors, deviations, estimate, quorum, -, config'⟩ := State.agreement_reads (a := x) (b := d)
    (by simp [hx]) (by simp [hx]) (by simp [hx]) (by simp [hx])
  have records : recorded = x.recordEstimate := by
    rw [State.recordEstimate, State.estimate, deviations, reads.2, show x.agreement = u.agreement by simp [hx, hd, closed.agreement]]
    rw [hx, hd]
  have point (some_ : c.contributors ≠ []) : u.roundEnd index = x.pointJoining.settleOwed 2 := by
    have heard := closes.trans (State.countSilence_heard (State.not_silent_of_contributors some_))
    rw [closed.station, ← hd] at heard
    rw [State.roundEnd_eq, heard, State.agreementPoint_joining (by rw [hd]; exact joining), reads.1, hx]
  have frame : recorded.station = { u.station with silenceCount := 0 } ∧ recorded.discipline = u.discipline ∧
      recorded.peers = c.peers ∧ recorded.link = c.link ∧ recorded.source = u.source ∧ recorded.gens = u.gens ∧
      recorded.config = u.config ∧ recorded.agreement = { u.agreement with
        estimate := some e, spread := some (spreadOf c.deviationList), shortRounds := 0 } ∧
      (∀ k : Fin 27, k = 1 ∨ k = 6 → State.SilentOn k u recorded) := by
    refine ⟨by simp [records, State.recordEstimate, hx, hd], by simp [records, State.recordEstimate, hx, hd, closed.discipline],
      by simp [records, State.recordEstimate, hx, hd], by simp [records, State.recordEstimate, hx, hd],
      by simp [records, State.recordEstimate, hx, hd, closed.source], by simp [records, State.recordEstimate, hx, hd, closed.gens],
      ?_, rfl, fun k other => ?_⟩
    · rw [records, ← closed.config]
      exact config'.trans (by rw [hd]; rfl)
    · have silent : State.SilentOn k d x := by
        rw [hx]
        exact .examineLabels _ _ (by rcases other with rfl | rfl <;> decide)
      refine (((closed.silent k (by rcases other with rfl | rfl <;> decide)).trans (.of_notices (by rw [hd]; rfl))).trans
        silent).trans (.of_notices (by rw [records]; rfl))
  have estimates : x.estimate = e := by rw [State.estimate, deviations, reads.2]
  have taking : x.recordEstimate.applyRules x.estimate false 0 = w := by rw [estimates, ← records]
  have quorums (some_ : c.contributors ≠ []) : x.quorum = true := by
    rw [quorum]
    exact State.quorum_of_joining (by rw [hd]; exact joining) (by rwa [reads.1])
  have held : x.station = { u.station with silenceCount := 0 } ∧ x.discipline = u.discipline ∧ x.config = u.config := by
    refine ⟨by simp [hx, hd], by simp [hx, hd, closed.discipline], ?_⟩
    rw [config', hd, ← closed.config]
    rfl
  obtain ⟨station, discipline, peers, link, source, gens, config, agreement, silent⟩ := frame
  obtain ⟨xStation, xDiscipline, xConfig⟩ := held
  have settles (some_ : c.contributors ≠ []) (taken : u.discipline.joiningStepTaken = true) : u.roundEnd index =
      (u.countedTo w (settleAfter u.config.stepThreshold u.station.settleCount e)).settle.settleOwed 2 := by
    rw [point some_, State.pointJoining_later (quorums some_) (by rw [xDiscipline, taken]), taking, estimates, xStation, xConfig]
    rfl
  have ruled : w.station = { u.station with silenceCount := 0 } := (State.applyRules_station ..).trans station
  refine ⟨alone, fun some_ first => ?first, fun some_ taken large => ?large, fun some_ taken small => ?small⟩
  case first =>
    have row : w = _ := State.applyRules_joiningStep (e := e) (s := recorded) (marked := false) (steer := 0)
      (State.beforeJoiningStep_iff.mpr ⟨by rw [station]; exact joining, by rw [discipline, first]⟩)
    rw [discipline, config] at row
    have kept : w.discipline = _ := row ▸ State.stepNoticed_keeps ..
    refine ⟨?_, ruled, by rw [kept]; rfl, by rw [kept]; rfl, by rw [kept]; rfl, by rw [kept]; rfl, fun a clock => ⟨?_, fun nonzero => ?_⟩⟩
    · rw [goes, point some_, State.pointJoining_first (quorums some_) (by rw [xDiscipline, first]), taking]
    · rw [row, State.stepNoticed_of_clock (c := a)]
      exact clock
    · rw [row]
      exact (silent 6 (.inr rfl)).before ((State.stepNoticed_reports _ _ _ nonzero).before rfl)
  case large =>
    have later : recorded.beforeJoiningStep = false := State.beforeJoiningStep_eq_false fun h => by
      rw [discipline, taken] at h
      exact Bool.noConfusion h.2
    have row : w = _ := State.applyRules_largeStep (steer := 0) later rfl (by rwa [config])
    have nonzero : e ≠ 0 := by omega
    rw [discipline, config] at row
    have kept : w.discipline = _ := row ▸ State.stepNoticed_keeps ..
    refine ⟨?_, ruled, by rw [kept]; rfl, by rw [kept]; rfl, by rw [kept]; rfl, fun a clock => ⟨?_, ?_⟩⟩
    · rw [goes, settles some_ taken, settleAfter, if_neg large.not_ge, State.settle_of_few (by decide : 0 < 4), State.countedTo, ruled]
    · rw [row, State.stepNoticed_of_clock (c := a)]
      exact clock
    · rw [row]
      exact (silent 6 (.inr rfl)).before ((State.stepNoticed_reports _ _ _ nonzero).before rfl)
  case small =>
    have later : recorded.beforeJoiningStep = false := State.beforeJoiningStep_eq_false fun h => by
      rw [discipline, taken] at h
      exact Bool.noConfusion h.2
    obtain ⟨table, links, generators, clock, quiet⟩ := State.applyRules_keeps (e := e) (steer := 0) (marked := false) later (.inr (by rwa [config]))
    have points : u.Settling c e w := {
      station := ruled
      owed := by rw [links, link, owed]
      peers := table.trans peers
      source := (State.applyRules_source ..).trans source
      gens := generators.trans gens
      clock := clock.trans (by rw [discipline])
      estimate := by rw [State.applyRules_agreement, agreement]
      shortRounds := by rw [State.applyRules_agreement, agreement]
      silent := (silent 1 (.inl rfl)).trans quiet }
    have settles := settles some_ taken
    rw [settleAfter, if_pos small] at settles
    have named (many : 3 ≤ u.station.settleCount) : u.settles index = true := by
      have heard := closes.trans (State.countSilence_heard (State.not_silent_of_contributors some_))
      rw [closed.station, ← hd] at heard
      have threshold : d.config.stepThreshold = u.config.stepThreshold := by rw [← config', xConfig]
      have settled : 4 ≤ settleAfter d.config.stepThreshold d.station.settleCount d.estimate := by
        rw [← estimate, estimates, threshold, settleAfter, if_pos small, hd]
        exact Nat.succ_le_succ many
      have settling : d.station.state = .joining ∧ d.discipline.joiningStepTaken = true := by
        rw [hd, State.setStation_discipline, closed.discipline]
        exact ⟨joining, taken⟩
      simp only [State.settles, heard, ← quorum, quorums some_, settled, settling, decide_true, Bool.and_true]
    clear_value w
    rcases lt_or_ge u.station.settleCount 3 with early | late
    · refine ⟨u.countedTo w (u.station.settleCount + 1), by rw [goes, settles, points.waits early], points.estimate, points.shortRounds,
        points.clock, points.peers, points.source, fun _ => ⟨rfl, points.gens⟩, fun late => absurd late early.not_ge⟩
    · have done := points.settles (u.station.settleCount + 1)
      have whole := settles.trans (points.agrees late)
      refine ⟨_, by rw [goes, whole], done.estimate, done.shortRounds, done.clock, done.peers, done.source,
        fun early => absurd late early.not_ge,
        fun _ => ⟨?_, done.state, done.reports, done.discipline, done.disagreements, done.majority⟩⟩
      rw [exec_settled_eq, show (s.elapse dt).roundEndTo _ = _ from State.roundEndTo_of_named due (named late)]
      exact congrArg Host.Outcome.next whole

end Sys2Proof.Machine
end

section
/-! PROOFS. The agreement points of holdover: WITHDRAWING, and ISOLATED until the studio is regained (R37, R71, R74, R79). -/

namespace Sys2Proof.Machine

section
variable {s : State}

/-- Outside JOINING the quorum is the configured one (R70). -/
theorem State.quorum_of_not_joining (other : s.station.state ≠ .joining) :
    s.quorum = decide (s.config.quorum ≤ s.contributors.length) := by
  unfold State.quorum
  split
  next joining => exact absurd joining other
  next => rfl

/-! ### WITHDRAWING (R74) -/

theorem State.agreementPoint_withdrawing (withdrawing : s.station.state = .withdrawing) :
    s.agreementPoint = if s.quorum then s.recordEstimate else s.countShort := by
  simp only [State.agreementPoint, withdrawing, State.pointWithdrawing]

/-! ### ISOLATED (R37, R79) -/

/-- A short round of ISOLATED examines the labels and is counted; it forms no anchor figure (R71, R108, R112). -/
theorem State.agreementPoint_isolated_short (isolated : s.station.state = .isolated) (short : s.quorum = false) :
    s.agreementPoint = (s.examineLabels s.contributors).countShort := by
  obtain ⟨-, -, -, quorum, -⟩ := State.agreement_reads (a := s.examineLabels s.contributors) (b := s)
    (by simp) (by simp) (by simp) (by simp)
  have idle : (s.examineLabels s.contributors).steers = false := by
    simp [State.steers, isolated, quorum, short]
  simp only [State.agreementPoint, isolated, idle, Bool.false_eq_true, if_false]
  refine (if_neg (by simp [State.raiseAll, isolated])).trans ?_
  refine if_neg ?_
  rw [show (s.examineLabels s.contributors).raiseAll [] = s.examineLabels s.contributors from rfl, quorum, short]
  exact Bool.false_ne_true

/-- The first point of ISOLATED with quorum regains the studio (R79). -/
theorem State.agreementPoint_isolated_quorum (isolated : s.station.state = .isolated) (quorum : s.quorum = true) :
    s.agreementPoint = ((s.steered.recordEstimate.enterAgreed .regained).setRestart).takeAgreed s.estimate
      ((s.examineLabels s.contributors).steer s.contributors).1 := by
  obtain ⟨contributors, -, -, quorum', -⟩ := State.agreement_reads (a := s.examineLabels s.contributors) (b := s)
    (by simp) (by simp) (by simp) (by simp)
  obtain ⟨-, -, estimate, quorum'', -⟩ := s.steered_reads
  have steers : (s.examineLabels s.contributors).steers = true := by
    simp [State.steers, isolated, quorum', quorum]
  simp only [State.agreementPoint, isolated, steers, if_true, contributors]
  refine (if_neg (by simp [isolated])).trans ((if_pos (quorum''.trans quorum)).trans ?_)
  exact congrArg (fun e => State.takeAgreed e _ _) estimate

end

/-! ### Entry into AGREED clears the counts (R82) -/

theorem State.move_setAgreement (st : StationState) (c : Cause) (a : Agreement) (s : State) :
    (s.setAgreement a).move st c = (s.move st c).setAgreement a := by
  cases st <;> rfl

/-- A chosen slew is all that changes of the discipline (R93). -/
theorem State.chooseSlew_discipline (x : Int) (s : State) : (s.chooseSlew x).discipline =
    { s.discipline with slew := (s.chooseSlew x).discipline.slew } := by
  unfold State.chooseSlew
  split <;> rfl

/-- What the counts were does not matter to an entry into AGREED. -/
theorem State.enterAgreed_setAgreement {a b : Agreement} (estimate : a.estimate = b.estimate) (spread : a.spread = b.spread)
    (c : Cause) (s : State) : (s.setAgreement a).enterAgreed c = (s.setAgreement b).enterAgreed c := by
  have cleared : ((s.setAgreement a).move .agreed c).clearCounts = ((s.setAgreement b).move .agreed c).clearCounts := by
    rw [State.move_setAgreement, State.move_setAgreement]
    have same : ({ a with shortRounds := 0, disagreements := 0 } : Agreement) =
        { b with shortRounds := 0, disagreements := 0 } := by rw [estimate, spread]
    exact congrArg (s.move .agreed c).setAgreement same
  rw [State.enterAgreed, State.enterAgreed, cleared]

/-- An estimate in AGREED with no disagreement before it does not come to the third (R75). -/
theorem State.takeAgreed_fresh {s : State} (e steer : Int) (fresh : s.agreement.disagreements = 0) : s.takeAgreed e steer =
    (s.setAgreement { s.agreement with disagreements := if s.config.maxStep < e.natAbs then 1 else 0 }).applyRules e
      (decide (s.config.maxStep < e.natAbs)) steer := by
  have compared : s.compareM e =
      s.setAgreement { s.agreement with disagreements := if s.config.maxStep < e.natAbs then 1 else 0 } := by
    simp only [State.compareM, State.beyondM, fresh, decide_eq_true_eq]
    rfl
  rw [State.takeAgreed, compared]
  refine if_neg ?_
  rw [State.applyRules_agreement, State.setAgreement_agreement]
  dsimp only
  split <;> decide

/-- The station that regains the studio with estimate `e`, up to the comparison with M (R22, R79, R91). -/
def State.regained (u c : State) (e : Int) : State :=
  let r := (c.steered.recordedWith 0).enterAgreed .regained
  (r.setDiscipline { r.discipline with restart := u.config.restartRounds }).setAgreement
    { r.agreement with disagreements := if u.config.maxStep < e.natAbs then 1 else 0 }

theorem State.takeAgreed_regained {u c : State} (config : c.config = u.config) (e steer : Int) :
    ((c.steered.recordEstimate.enterAgreed .regained).setRestart).takeAgreed e steer =
      (u.regained c e).applyRules e (decide (u.config.maxStep < e.natAbs)) steer := by
  have same : c.steered.recordEstimate.enterAgreed .regained = (c.steered.recordedWith 0).enterAgreed .regained :=
    State.enterAgreed_setAgreement rfl rfl _ _
  have config' : ((c.steered.recordedWith 0).enterAgreed .regained).config = u.config := by
    obtain ⟨-, -, -, -, -, -, config'⟩ := c.steered_recordedWith_frame 0
    rw [State.config, State.enterAgreed_port, ← config, ← config', State.config]
  rw [same, State.regained]
  generalize hr : (c.steered.recordedWith 0).enterAgreed .regained = r at config'
  have restarted : r.setRestart = r.setDiscipline { r.discipline with restart := u.config.restartRounds } := by
    rw [State.setRestart, config']
  rw [restarted, State.takeAgreed_fresh e steer (by rw [← hr, State.setDiscipline_agreement, State.enterAgreed_agreement]),
    ← config']
  rfl

structure State.Regains (u c : State) (e : Int) (q : State) : Prop where
  state : q.station.state = .agreed
  config : q.config = u.config
  peers : q.peers = c.peers
  owed : q.link.owedRoundEnd = u.link.owedRoundEnd
  discipline : q.discipline = { u.discipline with
    holdoverValue := u.discipline.rate, holdoverValid := true, restart := u.config.restartRounds }
  agreement : q.agreement = ⟨some c.estimate, some (spreadOf c.deviationList), 0, if u.config.maxStep < e.natAbs then 1 else 0⟩
  reports : Reports u q (.stateChanged .agreed .regained)

theorem State.regained_regains {u c : State} {index : Option Nat} (closed : u.TableClosed index c) (e : Int) :
    u.Regains c e (u.regained c e) := by
  obtain ⟨-, peers, link, discipline, -, -, config⟩ := c.steered_recordedWith_frame 0
  obtain ⟨-, deviations, estimate, -⟩ := c.steered_reads
  have agreement : (c.steered.recordedWith 0).agreement = ⟨some c.estimate, some (spreadOf c.deviationList), 0, 0⟩ := by
    rw [State.recordedWith, State.setAgreement_agreement, estimate, deviations]
  have silent : State.SilentOn 1 u (c.steered.recordedWith 0) :=
    ((closed.silent 1 (by decide)).trans (.steered _ (by decide) (by decide))).trans (.of_notices rfl)
  unfold State.regained
  generalize c.steered.recordedWith 0 = v at peers link discipline config agreement silent
  have port : (v.enterAgreed .regained).config = v.config := by simp [State.config]
  exact {
    state := by rw [State.setAgreement_station, State.setDiscipline_station, State.enterAgreed_station, State.move_state]
    config := port.trans (config.trans closed.config)
    peers := by rw [State.setAgreement_peers, State.setDiscipline_peers, State.enterAgreed_peers, peers]
    owed := by rw [State.setAgreement_link, State.setDiscipline_link, State.enterAgreed_owed, link, closed.owed]
    discipline := by
      rw [State.setAgreement_discipline, State.setDiscipline_discipline, State.enterAgreed_discipline, discipline,
        closed.discipline]
    agreement := by rw [State.setAgreement_agreement, State.enterAgreed_agreement, agreement]
    reports := silent.before ((v.enterAgreed_reports .regained).after rfl) }

/-- Settles O43: WITHDRAWING; then ISOLATED, short and with quorum. -/
theorem holdoverAgreementPoints : Obligations.HoldoverAgreementPoints := by
  intro dt s index u c e x steering r q due settled
  have closed : u.TableClosed index c := u.tableClosed index
  have goes : exec (.roundEnd dt) s = .next (u.roundEnd index) := exec_roundEnd_due due
  have owed : c.link.owedRoundEnd = none := closed.owed.trans settled
  have quorums (other : u.station.state ≠ .joining) : c.quorum = decide (u.config.quorum ≤ c.contributors.length) := by
    rw [← closed.config]
    exact State.quorum_of_not_joining (closed.station ▸ other)
  refine ⟨fun withdrawing => ?withdrawing, fun isolated => ?isolated⟩
  case withdrawing =>
    have closes : u.closeRound index = c := State.controlClose_of_agreement (.inr (.inr (closed.station ▸ withdrawing)))
    have point := State.agreementPoint_withdrawing (s := c) (closed.station ▸ withdrawing)
    have quorum := quorums (by rw [withdrawing]; exact StationState.noConfusion)
    clear_value c
    rcases lt_or_ge c.contributors.length u.config.quorum with short | enough
    · rw [quorum, decide_eq_false short.not_ge, if_neg Bool.false_ne_true] at point
      have whole := State.roundEnd_of_settled closes point owed
      refine ⟨_, by rw [goes, whole], by simp [closed.station], by simp [closed.discipline], by simp [closed.anchor],
        by simp [closed.gens], by simp, fun _ => ?_, fun enough => absurd enough short.not_ge⟩
      rw [State.countShort_agreement, closed.agreement]
    · rw [quorum, decide_eq_true enough, if_pos rfl] at point
      have whole := State.roundEnd_of_settled closes point owed
      refine ⟨_, by rw [goes, whole], by simp [closed.station], by simp [closed.discipline], by simp [closed.anchor],
        by simp [closed.gens], by simp, fun short => absurd enough short.not_ge, fun _ => ?_⟩
      rw [State.recordEstimate, State.setAgreement_agreement, closed.agreement]
      rfl
  case isolated =>
    have closes : u.closeRound index = c := State.controlClose_of_agreement (.inr (.inl (closed.station ▸ isolated)))
    have here : c.station.state = .isolated := closed.station ▸ isolated
    have quorum := quorums (by rw [isolated]; exact StationState.noConfusion)
    obtain ⟨-, deviations, estimate, -⟩ := c.steered_reads
    have records : r = (c.steered.recordedWith 0).enterAgreed .regained := by
      rw [State.recordedWith, estimate, deviations]; rfl
    have regains : q = u.regained c e := by
      rw [State.regained, ← records]
    have regained := State.regained_regains closed e
    rw [← regains] at regained
    have entered : r.station.state = .agreed ∧ r.agreement = ⟨some e, some (spreadOf c.deviationList), 0, 0⟩ ∧
        r.discipline = { u.discipline with holdoverValue := u.discipline.rate, holdoverValid := true } := by
      obtain ⟨-, -, -, discipline, -⟩ := c.steered_recordedWith_frame 0
      rw [records]
      refine ⟨by rw [State.enterAgreed_station, State.move_state], ?_, ?_⟩
      · rw [State.enterAgreed_agreement, State.recordedWith, State.setAgreement_agreement, estimate, deviations]
        rfl
      · rw [State.enterAgreed_discipline, discipline, closed.discipline]
    have ends (enough : u.config.quorum ≤ c.contributors.length) : u.roundEnd index =
        (q.applyRules e (decide (u.config.maxStep < e.natAbs)) steering.1).settleOwed 2 := by
      rw [decide_eq_true enough] at quorum
      rw [State.roundEnd_eq, closes, State.agreementPoint_isolated_quorum here quorum, State.takeAgreed_regained closed.config,
        regains]
      rfl
    clear_value q r steering x
    refine ⟨fun short => ?short, fun enough => ⟨by rw [goes, ends enough], entered⟩, fun enough small within restarts => ?slew⟩
    case short =>
      rw [decide_eq_false short.not_ge] at quorum
      have whole := State.roundEnd_of_settled closes (State.agreementPoint_isolated_short here quorum) (by simpa using owed)
      refine ⟨_, by rw [goes, whole], by simp [closed.station], by simp [closed.discipline], by simp [closed.gens], by simp, ?_⟩
      rw [State.countShort_agreement, State.examineLabels_agreement, closed.agreement]
    case slew =>
      have later : q.beforeJoiningStep = false := State.beforeJoiningStep_eq_false fun h => by
        rw [regained.state] at h
        exact StationState.noConfusion h.1
      have small : e.natAbs ≤ q.config.stepThreshold := by rwa [regained.config]
      have ends := ends enough
      rw [decide_eq_false within.not_gt] at ends
      obtain ⟨peers, link, -, clock, silent⟩ := State.applyRules_keeps (e := e) (steer := steering.1) later (.inr small)
      have slews := State.applyRules_restartSlew (steer := steering.1) later rfl small (.inl (by rw [regained.discipline]; exact restarts))
      have integrated := State.integrate_discipline (e := e) (s := State.chooseSlew (e + steering.1) (q.setDiscipline
        { q.discipline with restart := q.discipline.restart - 1, coastMark := false }))
      rw [← slews, State.chooseSlew_discipline, State.setDiscipline_discipline, regained.discipline] at integrated
      rw [State.settleOwed_none (by rw [link, regained.owed, settled])] at ends
      refine ⟨_, by rw [goes, ends], ?_, silent.after regained.reports, ?_, ?_, ?_, ?_, peers.trans regained.peers, ?_⟩
      · rw [State.applyRules_station, regained.state]
      · rw [clock, regained.discipline]
      · rw [integrated]
      · rw [integrated]
      · rw [integrated]
      · rw [State.applyRules_agreement, regained.agreement, if_neg within.not_gt]
        rfl

end Sys2Proof.Machine
end

section
/-! PROOFS. Fields of bytes read back from where they are laid down (R173), damaged frames (R8), and the beacon read back from
its bytes (R174 to R176). -/

namespace Sys2Proof.Machine

/-! ### Where a field lies (R173) -/

section
variable {a b : List Byte} {o n : Nat}

theorem part_append_left (inside : o + n ≤ a.length) : part (a ++ b) o n = part a o n := by
  rw [part, List.drop_append_of_le_length (by omega), List.take_append_of_le_length (by rw [List.length_drop]; omega)]
  rfl

theorem part_append_right (beyond : a.length ≤ o) : part (a ++ b) o n = part b (o - a.length) n := by
  rw [part, List.drop_append, List.drop_eq_nil_of_le beyond, List.nil_append]
  rfl

theorem part_whole (length : a.length = n) : part a 0 n = a := by
  rw [part, List.drop_zero, List.take_of_length_le length.le]

theorem part_drop (bs : List Byte) (k o n : Nat) : part (bs.drop k) o n = part bs (k + o) n := by
  rw [part, List.drop_drop]
  rfl

theorem natAt_append_left (inside : o + n ≤ a.length) : natAt (a ++ b) o n = natAt a o n := by
  rw [natAt, part_append_left inside]
  rfl

theorem natAt_append_right (beyond : a.length ≤ o) : natAt (a ++ b) o n = natAt b (o - a.length) n := by
  rw [natAt, part_append_right beyond]
  rfl

theorem intAt_append_left (inside : o + n ≤ a.length) : intAt (a ++ b) o n = intAt a o n := by
  rw [intAt, part_append_left inside]
  rfl

theorem intAt_append_right (beyond : a.length ≤ o) : intAt (a ++ b) o n = intAt b (o - a.length) n := by
  rw [intAt, part_append_right beyond]
  rfl

theorem natAt_drop (bs : List Byte) (k o n : Nat) : natAt (bs.drop k) o n = natAt bs (k + o) n := by
  rw [natAt, part_drop]
  rfl

end

/-! ### What a field holds (R173) -/

theorem natOf_cons (x : Byte) (bs : List Byte) : natOf (x :: bs) = x.toNat * 256 ^ bs.length + natOf bs := by
  have fold (bs : List Byte) (acc : Nat) :
      bs.foldl (fun a b => a * 256 + b.toNat) acc = acc * 256 ^ bs.length + natOf bs := by
    induction bs generalizing acc with
    | nil => simp [natOf]
    | cons y t ih =>
      have head : natOf (y :: t) = t.foldl (fun a b => a * 256 + b.toNat) (0 * 256 + y.toNat) := rfl
      rw [List.foldl_cons, ih, head, ih, List.length_cons, pow_succ]
      ring
  rw [natOf, List.foldl_cons, fold, Nat.zero_mul, Nat.zero_add]

theorem natOf_bytesOf (n v : Nat) : natOf (bytesOf n v) = v % 256 ^ n := by
  induction n with
  | zero => rw [pow_zero, Nat.mod_one]; rfl
  | succ k ih =>
    rw [bytesOf, natOf_cons, ih, length_bytesOf, BitVec.toNat_ofNat, pow_succ 256 k,
      Nat.mod_mul (x := v) (a := 256 ^ k) (b := 256), mul_comm, add_comm]

theorem natAt_bytesOf (n v : Nat) : natAt (bytesOf n v) 0 n = v % 256 ^ n := by
  rw [natAt, part_whole (length_bytesOf n v), natOf_bytesOf]

/-- A field shows what it can hold. -/
theorem natAt_field {n v : Nat} (fits : v < 256 ^ n) : natAt (field n v) 0 n = v := by
  rw [field, if_pos fits, natAt_bytesOf, Nat.mod_eq_of_lt fits]

/-- A signed field shows what it can hold, in two's complement. -/
theorem intAt_signedField {n : Nat} {x : Int} (least : -(256 ^ n / 2 : Int) ≤ x) (greatest : x < 256 ^ n / 2) :
    intAt (signedField n x) 0 n = x := by
  have fits : -(256 ^ n / 2 : Int) ≤ x ∧ x < 256 ^ n / 2 := ⟨least, greatest⟩
  rw [intAt, part_whole (length_signedField n x), intOf, length_signedField, signedField, if_pos fits, natOf_bytesOf]
  have positive : (0 : Int) < 256 ^ n := by positivity
  have cast : ((256 ^ n : Nat) : Int) = 256 ^ n := by push_cast; rfl
  have range := Int.emod_nonneg x positive.ne'
  have below := Int.emod_lt_of_pos x positive
  rw [Nat.mod_eq_of_lt (by omega)]
  rcases lt_or_ge x 0 with negative | nonnegative
  · have wraps : x % 256 ^ n = x + 256 ^ n := by
      rw [← Int.add_emod_right, Int.emod_eq_of_lt (by omega) (by omega)]
    rw [wraps] at range below ⊢
    rw [if_neg (by omega)]
    omega
  · rw [Int.emod_eq_of_lt nonnegative (by omega)]
    rw [if_pos (by omega)]
    omega

/-! ### Damaged frames (R8, R176) -/

section
variable {bs : List Byte} {n : Nat} {es : List EchoEntry} {b : Beacon}

theorem hasAnchor_eq (bs : List Byte) : hasAnchor bs = (natAt bs 3 1).testBit 0 := by
  rw [hasAnchor, Nat.testBit_zero]
  rfl

theorem hasNotice_eq (bs : List Byte) : hasNotice bs = (natAt bs 3 1).testBit 1 := by
  rw [hasNotice, Nat.testBit_succ, Nat.testBit_zero]
  rfl

/-- An echo entry that parses names a slot, with age 0 or 1 (R8). -/
theorem parseEcho_eq_some {e : EchoEntry} : parseEcho bs = some e ↔
    natAt bs 0 1 % 64 = e.slot.val ∧ natAt bs 0 1 / 64 = e.age.val ∧ intAt bs 1 4 = e.lag := by
  unfold parseEcho
  dsimp only
  split
  next fits =>
    rw [Option.some.injEq]
    obtain ⟨slot, lag, age⟩ := e
    simp only [EchoEntry.mk.injEq, Fin.ext_iff]
    tauto
  next unfit =>
    refine ⟨fun h => absurd h (by simp), fun ⟨slot, age, _⟩ => absurd ⟨?_, ?_⟩ unfit⟩
    · rw [slot]; exact e.slot.isLt
    · rw [age]; exact e.age.isLt

/-- Echo entries that parse do so one after the other, 5 bytes each. -/
theorem parseEchoes_get (parsed : parseEchoes n bs = some es) : es.length = n ∧
    ∀ (k : Nat) (inside : k < es.length), parseEcho (bs.drop (5 * k)) = some es[k] := by
  induction n generalizing bs es with
  | zero =>
    obtain rfl : [] = es := Option.some.inj parsed
    exact ⟨rfl, fun k inside => absurd inside k.not_lt_zero⟩
  | succ n ih =>
    rw [parseEchoes] at parsed
    split at parsed
    next e rest first others =>
      obtain rfl := Option.some.inj parsed
      obtain ⟨length, each⟩ := ih others
      refine ⟨by rw [List.length_cons, length], fun k inside => ?_⟩
      cases k with
      | zero => exact first
      | succ k =>
        rw [List.getElem_cons_succ, ← each k (Nat.lt_of_succ_lt_succ inside), List.drop_drop, Nat.mul_succ, Nat.add_comm]
    next => cases parsed

/-- The checks that a frame passes where it holds a beacon (R8). -/
structure Sound (bs : List Byte) (es : List EchoEntry) : Prop where
  state : (PeerState.ofCode (natAt bs 1 1)).isSome = true
  echoes : parseEchoes (echoCount bs) (bs.drop (echoesAt bs)) = some es
  whole : frameWhole bs = true
  fields : fieldsOk bs = true
  distinct : echoesOk (Fin.ofNat 32 (natAt bs 2 1)) es = true

theorem sound_of_parsed (parsed : parseBeacon bs = some b) : ∃ es, Sound bs es := by
  unfold parseBeacon at parsed
  split at parsed
  next st es state echoes =>
    dsimp only at parsed
    split at parsed
    next passes =>
      rw [Bool.and_eq_true, Bool.and_eq_true] at passes
      obtain ⟨⟨whole, fields⟩, distinct⟩ := passes
      exact ⟨es, by rw [state]; rfl, echoes, whole, fields, distinct⟩
    next => cases parsed
  next => cases parsed

/-- A frame that fails one of the checks is damaged. -/
theorem damaged_of {p : Prop} (fails : ∀ es, Sound bs es → p) (out : ¬p) : parseBeacon bs = none := by
  cases parsed : parseBeacon bs with
  | none => rfl
  | some b =>
    obtain ⟨es, sound⟩ := sound_of_parsed parsed
    exact absurd (fails es sound) out

end

/-- What the check of length and CRC says. -/
structure WholeSound (bs : List Byte) : Prop where
  longest : bs.length ≤ 77
  implied : bs.length = impliedLength bs
  check : natAt bs (bs.length - 4) 4 = (crc32 (bs.take (bs.length - 4))).toNat

/-- What the check of the fixed fields says. -/
structure FieldsSound (bs : List Byte) : Prop where
  format : natAt bs 0 1 = 1
  slot : natAt bs 2 1 < 32
  echoes : echoCount bs ≤ 8
  tag : natAt bs 4 4 ≠ 0
  counted : natAt bs 14 1 ≤ 31
  labelOffset : -86400 ≤ intAt bs 15 4 ∧ intAt bs 15 4 ≤ 86400
  notice : hasNotice bs = true → -86400 ≤ intAt bs (noticeAt bs) 4 ∧ intAt bs (noticeAt bs) 4 ≤ 86400

section
variable {bs : List Byte} {es : List EchoEntry} (h : Sound bs es)
include h

theorem Sound.passes : WholeSound bs := by
  have whole := h.whole
  simp only [frameWhole, Bool.and_eq_true, decide_eq_true_eq, beq_iff_eq] at whole
  obtain ⟨⟨⟨-, longest⟩, implied⟩, check⟩ := whole
  exact ⟨longest, implied, check⟩

theorem Sound.fixed : FieldsSound bs := by
  have fields := h.fields
  simp only [fieldsOk, labelOffsetOk, Bool.and_eq_true, Bool.or_eq_true, Bool.not_eq_true', decide_eq_true_eq, beq_iff_eq,
    bne_iff_ne] at fields
  obtain ⟨⟨⟨⟨⟨⟨format, slot⟩, count⟩, tag⟩, counted⟩, offset⟩, notice⟩ := fields
  exact ⟨format, slot, count, tag, counted, offset, fun present => notice.resolve_left (by rw [present]; decide)⟩

theorem Sound.peerState : 3 ≤ natAt bs 1 1 ∧ natAt bs 1 1 ≤ 7 := by
  have state := h.state
  unfold PeerState.ofCode at state
  split at state
  next code => omega
  next code => omega
  next code => omega
  next code => omega
  next code => omega
  next => cases state

/-- The echo entries of a sound frame, by their first bytes. -/
theorem Sound.echo {k : Nat} (inside : k < echoCount bs) : ∃ named : k < es.length,
    natAt bs (echoesAt bs + 5 * k) 1 % 64 = es[k].slot.val ∧ natAt bs (echoesAt bs + 5 * k) 1 / 64 < 2 := by
  obtain ⟨length, each⟩ := parseEchoes_get h.echoes
  have named : k < es.length := by rwa [length]
  have echo := each k named
  rw [List.drop_drop, parseEcho_eq_some, natAt_drop] at echo
  obtain ⟨slot, age, -⟩ := echo
  exact ⟨named, slot, by rw [Nat.add_zero] at age; rw [age]; exact es[k].age.isLt⟩

theorem Sound.echoSlots : (∀ e ∈ es, e.slot.val ≠ natAt bs 2 1) ∧ (es.map (·.slot)).Nodup := by
  have distinct := h.distinct
  simp only [echoesOk, Bool.and_eq_true, List.all_eq_true, bne_iff_ne, decide_eq_true_eq] at distinct
  obtain ⟨foreign, nodup⟩ := distinct
  refine ⟨fun e mem same => foreign e mem (Fin.ext ?_), nodup⟩
  rw [same, Fin.val_ofNat, Nat.mod_eq_of_lt h.fixed.slot]

end

/-- Settles O19: each defect contradicts a check that a sound frame passes. -/
theorem damagedFramesFound : Obligations.DamagedFramesFound := by
  intro bs anchor notice echoes echoByte
  have anchorLength : noticeAt bs = 19 + anchor := by rw [noticeAt, hasAnchor_eq]
  have noticeLength : echoesAt bs = 19 + anchor + notice := by rw [echoesAt, hasNotice_eq, anchorLength]
  have count : echoCount bs = echoes := rfl
  have echoOf (k : Nat) : echoByte k = natAt bs (echoesAt bs + 5 * k) 1 := by rw [noticeLength]
  refine ⟨?check, ?length, ?long, ?format, ?state, ?slot, ?tag, ?counted, ?offset, ?noticeOffset, ?many, ?echo, ?twice⟩
  case check => exact damaged_of fun es h => h.passes.check
  case length =>
    refine damaged_of fun es h => ?_
    rw [h.passes.implied, impliedLength, noticeLength, count]
  case long => exact fun long => damaged_of (fun es h => h.passes.longest) long.not_ge
  case format => exact damaged_of fun es h => h.fixed.format
  case state => exact fun out => damaged_of (fun es h => h.peerState) (by omega)
  case slot => exact fun out => damaged_of (fun es h => h.fixed.slot) (by omega)
  case tag => exact fun zero => damaged_of (fun es h => h.fixed.tag) (not_not.mpr zero)
  case counted => exact fun out => damaged_of (fun es h => h.fixed.counted) (by omega)
  case offset => exact fun out => damaged_of (fun es h => h.fixed.labelOffset) (by omega)
  case noticeOffset =>
    intro present out
    refine damaged_of (fun es h => h.fixed.notice ?_) (by rw [anchorLength]; omega)
    rw [hasNotice_eq]
    by_contra absent
    exact absurd present (by rw [show notice = 0 from if_neg absent]; decide)
  case many => exact fun out => damaged_of (fun es h => h.fixed.echoes) (by rw [count]; omega)
  case echo =>
    intro k inside out
    rw [echoOf] at out
    refine damaged_of (fun es h => ?_) (not_not.mpr out)
    obtain ⟨named, slot, age⟩ := h.echo (inside := inside)
    have foreign := h.echoSlots.1 _ (List.getElem_mem named)
    have small := es[k].slot.isLt
    omega
  case twice =>
    intro j k before inside same
    rw [echoOf, echoOf] at same
    refine damaged_of (fun es h => ?_) (not_not.mpr same)
    obtain ⟨named, slot, -⟩ := h.echo (inside := inside)
    obtain ⟨named', slot', -⟩ := h.echo (inside := before.trans inside)
    rw [slot, slot']
    have distinct := List.Nodup.getElem_inj_iff h.echoSlots.2 (hi := by rwa [List.length_map]) (hj := by rwa [List.length_map])
      (i := j) (j := k)
    exact fun same => before.ne (distinct.mp (by rw [List.getElem_map, List.getElem_map]; exact Fin.ext same))

/-! ### A beacon in bytes (R175, R176) -/

theorem PeerState.ofCode_code (p : PeerState) : PeerState.ofCode p.code = some p := by cases p <;> rfl

@[simp] theorem EchoEntry.length_bytes (e : EchoEntry) : e.bytes.length = 5 := by simp [EchoEntry.bytes]

@[simp] theorem LabelNotice.length_bytes (n : LabelNotice) : n.bytes.length = 10 := by simp [LabelNotice.bytes]

/-- An echo entry is read back from its bytes. -/
theorem parseEcho_bytes {e : EchoEntry} (rest : List Byte) (lag : -2147483648 ≤ e.lag ∧ e.lag ≤ 2147483647) :
    parseEcho (e.bytes ++ rest) = some e := by
  have slot := e.slot.isLt
  have age := e.age.isLt
  have first : natAt (e.bytes ++ rest) 0 1 = e.slot.val + 64 * e.age.val := by
    rw [natAt_append_left (by rw [EchoEntry.length_bytes]; decide), EchoEntry.bytes,
      natAt_append_left (by rw [length_field]), natAt_field (by omega)]
  have rest : intAt (e.bytes ++ rest) 1 4 = e.lag := by
    rw [intAt_append_left (by rw [EchoEntry.length_bytes]), EchoEntry.bytes, intAt_append_right (by rw [length_field]),
      length_field]
    exact intAt_signedField (by omega) (by omega)
  rw [parseEcho_eq_some, first, rest]
  omega

theorem parseEchoes_bytes {es : List EchoEntry} (rest : List Byte)
    (lags : ∀ e ∈ es, -2147483648 ≤ e.lag ∧ e.lag ≤ 2147483647) :
    parseEchoes es.length (es.flatMap EchoEntry.bytes ++ rest) = some es := by
  induction es with
  | nil => rfl
  | cons e es ih =>
    have first := parseEcho_bytes (es.flatMap EchoEntry.bytes ++ rest) (lags e List.mem_cons_self)
    have others := ih fun x mem => lags x (List.mem_cons_of_mem e mem)
    have left : (e.bytes ++ (es.flatMap EchoEntry.bytes ++ rest)).drop 5 = es.flatMap EchoEntry.bytes ++ rest :=
      List.drop_left' e.length_bytes
    rw [List.flatMap_cons, List.append_assoc, List.length_cons, parseEchoes, first, left, others]

section
variable (b : Beacon)

/-- The fields of a beacon before its optional parts: 19 bytes (R175). -/
def Beacon.head : List Byte :=
  field 1 1 ++ (field 1 b.state.code ++ (field 1 b.slot.val ++ (field 1 b.presence ++ (field 4 b.tag ++ (field 6 b.round
    ++ (field 1 b.counted ++ signedField 4 b.labelOffset))))))

/-- The anchor offset and the label notice, where they are present. -/
def Beacon.anchorPart : List Byte := (b.anchorOffset.map (signedField 4)).getD []

def Beacon.noticePart : List Byte := (b.notice.map LabelNotice.bytes).getD []

/-- The check at the end of a beacon. -/
def Beacon.check : List Byte := bytesOf 4 (crc32 b.body).toNat

theorem Beacon.body_eq :
    b.body = b.head ++ (b.anchorPart ++ (b.noticePart ++ b.echoes.flatMap EchoEntry.bytes)) := by
  simp only [Beacon.body, Beacon.head, Beacon.anchorPart, Beacon.noticePart, List.append_assoc]

theorem Beacon.bytes_eq :
    b.bytes = b.head ++ (b.anchorPart ++ (b.noticePart ++ (b.echoes.flatMap EchoEntry.bytes ++ b.check))) := by
  rw [Beacon.bytes, Beacon.body_eq]
  simp only [Beacon.check, Beacon.body_eq, List.append_assoc]

@[simp] theorem Beacon.length_head : b.head.length = 19 := by simp [Beacon.head]

@[simp] theorem Beacon.length_anchorPart : b.anchorPart.length = if b.anchorOffset.isSome then 4 else 0 := by
  rw [Beacon.anchorPart]
  cases b.anchorOffset <;> simp

@[simp] theorem Beacon.length_noticePart : b.noticePart.length = if b.notice.isSome then 10 else 0 := by
  rw [Beacon.noticePart]
  cases b.notice <;> simp

theorem length_echoes (es : List EchoEntry) : (es.flatMap EchoEntry.bytes).length = 5 * es.length := by
  rw [List.length_flatMap]
  simp [Nat.mul_comm]

theorem Beacon.length_bytes : b.bytes.length = b.body.length + 4 := by
  rw [Beacon.bytes, List.length_append, length_bytesOf]

theorem Beacon.length_body : b.body.length =
    19 + (if b.anchorOffset.isSome then 4 else 0) + (if b.notice.isSome then 10 else 0) + 5 * b.echoes.length := by
  simp only [Beacon.body_eq, List.length_append, Beacon.length_head, Beacon.length_anchorPart, Beacon.length_noticePart,
    length_echoes]
  omega

/-- The check at the end is that of what stands before it. -/
theorem Beacon.bytes_check : natAt b.bytes (b.bytes.length - 4) 4 = (crc32 (b.bytes.take (b.bytes.length - 4))).toNat := by
  rw [Beacon.length_bytes, Nat.add_sub_cancel, Beacon.bytes, natAt_append_right le_rfl, Nat.sub_self, natAt_bytesOf,
    List.take_left' rfl]
  exact Nat.mod_eq_of_lt (crc32 b.body).isLt

end

section
variable {b : Beacon} (fits : b.Fits)
include fits

theorem Beacon.Fits.presence_lt : b.presence < 256 ∧ b.presence / 16 = b.echoes.length ∧
    (b.presence % 2 = 1 ↔ b.anchorOffset.isSome = true) ∧ (b.presence / 2 % 2 = 1 ↔ b.notice.isSome = true) := by
  have count := fits.echoCount
  rw [Beacon.presence]
  cases b.anchorOffset <;> cases b.notice <;> simp <;> omega

/-- What the first 19 bytes of a beacon that can be sent hold. -/
structure Beacon.Head (b : Beacon) (bs : List Byte) : Prop where
  format : natAt bs 0 1 = 1
  state : natAt bs 1 1 = b.state.code
  slot : natAt bs 2 1 = b.slot.val
  presence : natAt bs 3 1 = b.presence
  tag : natAt bs 4 4 = b.tag
  round : natAt bs 8 6 = b.round
  counted : natAt bs 14 1 = b.counted
  labelOffset : intAt bs 15 4 = b.labelOffset

theorem Beacon.Fits.head : b.Head b.head := by
  have state : b.state.code < 256 ^ 1 := by cases b.state <;> decide
  have slot : b.slot.val < 256 ^ 1 := b.slot.isLt.trans (by decide)
  have presence : b.presence < 256 ^ 1 := fits.presence_lt.1
  have tag : b.tag < 256 ^ 4 := Nat.lt_of_le_of_lt fits.tag.2 (by decide)
  have round : b.round < 256 ^ 6 := fits.round
  have counted : b.counted < 256 ^ 1 := Nat.lt_of_le_of_lt fits.counted (by decide)
  have offset : intAt (signedField 4 b.labelOffset) 0 4 = b.labelOffset := by
    obtain ⟨least, greatest⟩ := fits.labelOffset
    exact intAt_signedField (by omega) (by omega)
  have format : 1 < 256 ^ 1 := by decide
  constructor <;> simp [Beacon.head, natAt_append_right, natAt_append_left, intAt_append_right, natAt_field format,
    natAt_field state, natAt_field slot, natAt_field presence, natAt_field tag, natAt_field round, natAt_field counted, offset]

/-- The head of a beacon stands at the front of its bytes. -/
theorem Beacon.Fits.head_bytes : b.Head b.bytes := by
  have at_front (o n : Nat) (inside : o + n ≤ 19) : natAt b.bytes o n = natAt b.head o n := by
    rw [Beacon.bytes_eq, natAt_append_left (by rwa [Beacon.length_head])]
  have offset : intAt b.bytes 15 4 = intAt b.head 15 4 := by
    rw [Beacon.bytes_eq, intAt_append_left (by rw [Beacon.length_head])]
  have head := fits.head
  exact {
    format := (at_front 0 1 (by decide)).trans head.format
    state := (at_front 1 1 (by decide)).trans head.state
    slot := (at_front 2 1 (by decide)).trans head.slot
    presence := (at_front 3 1 (by decide)).trans head.presence
    tag := (at_front 4 4 (by decide)).trans head.tag
    round := (at_front 8 6 (by decide)).trans head.round
    counted := (at_front 14 1 (by decide)).trans head.counted
    labelOffset := offset.trans head.labelOffset }

theorem Beacon.Fits.hasAnchor : hasAnchor b.bytes = b.anchorOffset.isSome := by
  obtain ⟨-, -, anchor, -⟩ := fits.presence_lt
  rw [Machine.hasAnchor, fits.head_bytes.presence, Bool.eq_iff_iff, beq_iff_eq, anchor]

theorem Beacon.Fits.hasNotice : hasNotice b.bytes = b.notice.isSome := by
  obtain ⟨-, -, -, notice⟩ := fits.presence_lt
  rw [Machine.hasNotice, fits.head_bytes.presence, Bool.eq_iff_iff, beq_iff_eq, notice]

theorem Beacon.Fits.echoCount_bytes : Machine.echoCount b.bytes = b.echoes.length := by
  obtain ⟨-, count, -⟩ := fits.presence_lt
  rw [Machine.echoCount, fits.head_bytes.presence, count]

theorem Beacon.Fits.noticeAt : noticeAt b.bytes = (b.head ++ b.anchorPart).length := by
  rw [Machine.noticeAt, fits.hasAnchor, List.length_append, Beacon.length_head, Beacon.length_anchorPart]

theorem Beacon.Fits.echoesAt : echoesAt b.bytes = (b.head ++ (b.anchorPart ++ b.noticePart)).length := by
  rw [Machine.echoesAt, fits.noticeAt, fits.hasNotice]
  simp only [List.length_append, Beacon.length_noticePart]
  omega

/-- The anchor offset read back. -/
theorem Beacon.Fits.anchorOffset_bytes :
    (if Machine.hasAnchor b.bytes then some (intAt b.bytes 19 4) else none) = b.anchorOffset := by
  rw [fits.hasAnchor, Beacon.bytes_eq, Beacon.anchorPart]
  cases offset : b.anchorOffset with
  | none => rfl
  | some x =>
    obtain ⟨least, greatest⟩ := fits.anchorOffset x offset
    have read : intAt (signedField 4 x) 0 4 = x := intAt_signedField (by omega) (by omega)
    simp [intAt_append_right, intAt_append_left, read]

/-- The label notice read back. -/
theorem Beacon.Fits.notice_bytes {n : LabelNotice} (notice : b.notice = some n) :
    intAt b.bytes (Machine.noticeAt b.bytes) 4 = n.offset ∧ natAt b.bytes (Machine.noticeAt b.bytes + 4) 6 = n.second := by
  obtain ⟨⟨least, greatest⟩, second⟩ := fits.notice n notice
  have offset : intAt (signedField 4 n.offset) 0 4 = n.offset := intAt_signedField (by omega) (by omega)
  have second : natAt (field 6 n.second) 0 6 = n.second := natAt_field second
  rw [fits.noticeAt, Beacon.bytes_eq, Beacon.noticePart, notice, ← List.append_assoc, intAt_append_right le_rfl,
    natAt_append_right (by omega), Nat.sub_self, Nat.add_sub_cancel_left, Option.map_some, Option.getD_some, LabelNotice.bytes]
  simp [intAt_append_left, natAt_append_right, natAt_append_left, offset, second]

theorem Beacon.Fits.echoes_bytes : parseEchoes (Machine.echoCount b.bytes) (b.bytes.drop (Machine.echoesAt b.bytes)) =
    some b.echoes := by
  rw [fits.echoCount_bytes, fits.echoesAt, Beacon.bytes_eq]
  have left : (b.head ++ (b.anchorPart ++ (b.noticePart ++ (b.echoes.flatMap EchoEntry.bytes ++ b.check)))).drop
      (b.head ++ (b.anchorPart ++ b.noticePart)).length = b.echoes.flatMap EchoEntry.bytes ++ b.check := by
    rw [← List.append_assoc b.anchorPart, ← List.append_assoc b.head (b.anchorPart ++ b.noticePart)]
    exact List.drop_left
  rw [left]
  exact parseEchoes_bytes _ fits.echoLags

theorem Beacon.Fits.whole : frameWhole b.bytes = true := by
  have length := b.length_body
  have implied : b.bytes.length = impliedLength b.bytes := by
    rw [impliedLength, fits.echoesAt, fits.echoCount_bytes, Beacon.length_bytes, Beacon.length_body]
    simp only [List.length_append, Beacon.length_head, Beacon.length_anchorPart, Beacon.length_noticePart]
    omega
  have count := fits.echoCount
  simp only [frameWhole, Bool.and_eq_true, decide_eq_true_eq, beq_iff_eq]
  refine ⟨⟨⟨?_, ?_⟩, implied⟩, b.bytes_check⟩ <;> rw [Beacon.length_bytes, length] <;> split <;> split <;> omega

theorem Beacon.Fits.fields : fieldsOk b.bytes = true := by
  have head := fits.head_bytes
  have slot := b.slot.isLt
  have tag := fits.tag
  have counted := fits.counted
  have offset := fits.labelOffset
  have notice : Machine.hasNotice b.bytes = false ∨ -86400 ≤ intAt b.bytes (Machine.noticeAt b.bytes) 4 ∧
      intAt b.bytes (Machine.noticeAt b.bytes) 4 ≤ 86400 := by
    rw [fits.hasNotice]
    cases notice : b.notice with
    | none => exact .inl rfl
    | some n =>
      rw [(fits.notice_bytes notice).1]
      exact .inr (fits.notice n notice).1
  simp only [fieldsOk, labelOffsetOk, head.format, head.slot, fits.echoCount_bytes, head.tag, head.counted, head.labelOffset,
    Bool.and_eq_true, Bool.or_eq_true, Bool.not_eq_true', decide_eq_true_eq, beq_iff_eq, bne_iff_ne]
  exact ⟨⟨⟨⟨⟨⟨trivial, slot⟩, fits.echoCount⟩, by omega⟩, counted⟩, offset⟩, notice⟩

end

/-- Settles O55: every check passes, and every field is read back from where it stands. -/
theorem beaconsReadBack : Obligations.BeaconsReadBack := by
  intro b fits
  have head := fits.head_bytes
  have slot : Fin.ofNat 32 (natAt b.bytes 2 1) = b.slot := by
    rw [head.slot]
    exact Fin.ofNat_val_eq_self b.slot
  have distinct : echoesOk b.slot b.echoes = true := by
    simp only [echoesOk, Bool.and_eq_true, List.all_eq_true, bne_iff_ne, decide_eq_true_eq]
    exact ⟨fits.notOwn, fits.echoSlots⟩
  have notice : (if hasNotice b.bytes then some (LabelNotice.mk (intAt b.bytes (noticeAt b.bytes) 4)
      (natAt b.bytes (noticeAt b.bytes + 4) 6)) else none) = b.notice := by
    rw [fits.hasNotice]
    cases notice : b.notice with
    | none => rfl
    | some n =>
      obtain ⟨offset, second⟩ := fits.notice_bytes notice
      rw [offset, second]
      rfl
  unfold parseBeacon
  rw [head.state, PeerState.ofCode_code, fits.echoes_bytes]
  simp only [slot, fits.whole, fits.fields, distinct, Bool.and_self, if_true, fits.anchorOffset_bytes, notice, head.tag, head.round,
    head.counted, head.labelOffset]

end Sys2Proof.Machine
end

section
/-! PROOFS. The snapshots, READ_TIME and the notice record, byte by byte (R63, R146, R165, R177, R180, R181). -/

namespace Sys2Proof.Machine

/-! ### Flags (R180) -/

theorem flagBits_cons (b : Bool) (fs : List Bool) : flagBits (b :: fs) = bit b + 2 * flagBits fs := rfl

theorem testBit_flagBits (fs : List Bool) (i : Nat) : (flagBits fs).testBit i = fs.getD i false := by
  induction fs generalizing i with
  | nil => simp [flagBits]
  | cons b fs ih =>
    have low : (bit b + 2 * flagBits fs) % 2 = bit b := by cases b <;> simp [bit, Nat.add_mod]
    have single : bit b ≤ 1 := by cases b <;> decide
    have high : (bit b + 2 * flagBits fs) / 2 = flagBits fs := by omega
    cases i with
    | zero => rw [flagBits_cons, Nat.testBit_zero, low]; cases b <;> rfl
    | succ i => rw [flagBits_cons, Nat.testBit_succ, high, ih]; rfl

theorem flagBits_lt (fs : List Bool) : flagBits fs < 2 ^ fs.length := by
  induction fs with
  | nil => decide
  | cons b fs ih =>
    have low : bit b ≤ 1 := by cases b <;> decide
    rw [flagBits_cons, List.length_cons, pow_succ]
    omega

theorem flagBits_fits {fs : List Bool} {n : Nat} (short : fs.length ≤ 8 * n) : flagBits fs < 256 ^ n := by
  have bytes : 256 ^ n = 2 ^ (8 * n) := by rw [pow_mul]; rfl
  rw [bytes]
  exact (flagBits_lt fs).trans_le (Nat.pow_le_pow_right (by decide) short)

/-! ### What concatenated fields show -/

section
variable {a b : List Byte} {o n v : Nat} {x : Int}

theorem shows_right (beyond : a.length ≤ o) : Shows (a ++ b) o n v ↔ Shows b (o - a.length) n v := by
  rw [Shows, natAt_append_right beyond]
  rfl

theorem shows_left (inside : o + n ≤ a.length) : Shows (a ++ b) o n v ↔ Shows a o n v := by
  rw [Shows, natAt_append_left inside]
  rfl

theorem showsInt_right (beyond : a.length ≤ o) : ShowsInt (a ++ b) o n x ↔ ShowsInt b (o - a.length) n x := by
  rw [ShowsInt, intAt_append_right beyond]
  rfl

theorem showsInt_left (inside : o + n ≤ a.length) : ShowsInt (a ++ b) o n x ↔ ShowsInt a o n x := by
  rw [ShowsInt, intAt_append_left inside]
  rfl

theorem shows_field (n v : Nat) : Shows (field n v) 0 n v := natAt_field

theorem showsInt_field (n : Nat) (x : Int) : ShowsInt (signedField n x) 0 n x := intAt_signedField

theorem showsInt_option (n : Nat) (x : Option Int) : ShowsInt (signedOption n x) 0 n (x.getD 0) :=
  showsInt_field _ _

@[simp] theorem length_signedOption (n : Nat) (x : Option Int) : (signedOption n x).length = n :=
  length_signedField _ _

@[simp] theorem length_timeOption (t : Option Nat) : (timeOption t).length = 10 := length_timeField _

theorem showsTime_right {t : Option Nat} (beyond : a.length ≤ o) :
    ShowsTime (a ++ b) o t ↔ ShowsTime b (o - a.length) t := by
  rw [ShowsTime, ShowsTime, shows_right beyond, shows_right (by omega), Nat.sub_add_comm beyond]

theorem showsTime_left {t : Option Nat} (inside : o + 10 ≤ a.length) : ShowsTime (a ++ b) o t ↔ ShowsTime a o t := by
  rw [ShowsTime, ShowsTime, shows_left (by omega), shows_left (by omega)]

theorem showsTime_option (t : Option Nat) : ShowsTime (timeOption t) 0 t := by
  rw [ShowsTime, timeOption, timeField, shows_left (by simp), shows_right (by simp)]
  exact ⟨shows_field _ _, by simpa using shows_field _ _⟩

theorem showsChange_right {c : Option LabelChange} (beyond : a.length ≤ o) :
    ShowsChange (a ++ b) o c ↔ ShowsChange b (o - a.length) c := by
  rw [ShowsChange, ShowsChange, showsInt_right beyond, shows_right (by omega), natAt_append_right (by omega),
    Nat.sub_add_comm beyond, Nat.sub_add_comm beyond]

theorem showsChange_left {c : Option LabelChange} (inside : o + 11 ≤ a.length) :
    ShowsChange (a ++ b) o c ↔ ShowsChange a o c := by
  rw [ShowsChange, ShowsChange, showsInt_left (by omega), shows_left (by omega), natAt_append_left (by omega)]

theorem showsChange_bytes (c : Option LabelChange) : ShowsChange (changeBytes c) 0 c := by
  cases c with
  | none => exact ⟨fun _ _ => by decide, fun _ => by decide, by decide⟩
  | some c =>
    obtain ⟨offset, second, origin⟩ := c
    have code : natAt (field 1 origin.code) 0 1 = origin.code := natAt_field (by cases origin <;> simp [Origin.code])
    rw [ShowsChange, changeBytes, List.append_assoc, showsInt_left (by simp), shows_right (by simp), shows_left (by simp),
      natAt_append_right (by simp), natAt_append_right (by simp)]
    refine ⟨showsInt_field _ _, by simpa using shows_field _ _, ?_⟩
    refine Eq.trans (by simpa using code) ?_
    cases origin <;> rfl

end

/-! ### The station snapshot (R180) -/

theorem toList_four {α : Type} (v : Vector α 4) :
    v.toList = [v[(0 : Fin 4)], v[(1 : Fin 4)], v[(2 : Fin 4)], v[(3 : Fin 4)]] := by
  refine List.ext_getElem (by simp) fun k inside _ => ?_
  have small : k < 4 := by simpa using inside
  interval_cases k <;> simp

section
variable (s : State)

theorem FaultReason.code_le (f : FaultReason) : f.code ≤ 20 := by
  cases f with
  | cause c => cases c <;> decide
  | _ => decide

theorem PeerTable.number_le (t : PeerTable) (st : EntryState) : t.number st ≤ 32 := by
  have length := List.length_filter_le (fun i : Fin 32 => (t.entries[i]).state == st) (List.finRange 32)
  rwa [List.length_finRange] at length

/-- The fields of the status snapshot, each where the one before it ends. -/
theorem State.statusSnapshot_eq : s.statusSnapshot =
    field 1 s.station.state.code ++ (field 1 s.station.faultReason.code ++ (field 1 s.statusFlags
    ++ (field 1 s.source.selected.code ++ (field 6 (s.round.getD 0) ++ (timeOption s.reading
    ++ (field 1 (s.peers.number .heard) ++ (field 1 (s.peers.number .counted)
    ++ (signedOption 8 s.agreement.estimate ++ (signedOption 8 s.agreement.spread
    ++ (field 1 s.agreement.shortRounds ++ (field 1 s.agreement.disagreements
    ++ (signedField 4 s.discipline.rate ++ (field 1 s.discipline.band ++ (field 1 s.discipline.restart
    ++ (field 1 s.source.xo.health.code ++ (field 1 s.source.ref.health.code ++ (field 1 s.source.synth.code
    ++ (signedOption 8 s.anchor.offset ++ (signedField 4 s.anchor.labelOffset ++ (changeBytes s.anchor.change
    ++ (field 1 (s.gens[(0 : Fin 4)]).state.code ++ (field 1 (s.gens[(1 : Fin 4)]).state.code
    ++ (field 1 (s.gens[(2 : Fin 4)]).state.code ++ (field 1 (s.gens[(3 : Fin 4)]).state.code
    ++ field 1 0)))))))))))))))))))))))) := by
  delta State.statusSnapshot
  simp only [toList_four, List.flatMap_cons, List.flatMap_nil, List.append_assoc, List.append_nil]

theorem State.length_statusSnapshot : s.statusSnapshot.length = 77 := by
  rw [State.statusSnapshot_eq]
  simp only [List.length_append, length_field, length_signedField, length_signedOption, length_timeOption, length_changeBytes,
    Nat.reduceAdd]

theorem State.statusSnapshot_shows : StatusShows s s.statusSnapshot := by
  have state : s.station.state.code < 256 ^ 1 := by cases s.station.state <;> decide
  have fault : s.station.faultReason.code < 256 ^ 1 := Nat.lt_of_le_of_lt (FaultReason.code_le _) (by decide)
  have selected : s.source.selected.code < 256 ^ 1 := by cases s.source.selected <;> decide
  have heard : s.peers.number .heard < 256 ^ 1 := Nat.lt_of_le_of_lt (PeerTable.number_le _ _) (by decide)
  have counted : s.peers.number .counted < 256 ^ 1 := Nat.lt_of_le_of_lt (PeerTable.number_le _ _) (by decide)
  have health (h : Health) : h.code < 256 ^ 1 := by cases h <;> decide
  have synth : s.source.synth.code < 256 ^ 1 := by cases s.source.synth <;> decide
  have gen (g : GenState) : g.code < 256 ^ 1 := by cases g <;> decide
  have zero : 0 < 256 ^ 1 := by decide
  have round : s.round.getD 0 = s.reading.getD 0 / 8000000 := by
    rw [State.round]
    cases s.reading <;> rfl
  have flags : natAt (field 1 s.statusFlags) 0 1 = s.statusFlags := natAt_field (flagBits_fits le_rfl)
  rw [State.statusSnapshot_eq]
  constructor
  case flags =>
    intro i
    rw [← testBit_flagBits]
    simp only [length_field, Nat.reduceLeDiff, Nat.reduceSub, le_refl, Nat.zero_add, natAt_append_right, natAt_append_left, flags]
    rfl
  case gens =>
    intro i
    fin_cases i <;> simp only [length_field, length_signedField, length_signedOption, length_timeOption, length_changeBytes,
      Nat.reduceLeDiff, Nat.reduceSub, Nat.reduceAdd, le_refl, Nat.zero_add, Nat.sub_self, natAt_append_right,
      natAt_append_left, natAt_field (gen _)] <;> rfl
  all_goals simp only [length_field, length_signedField, length_signedOption, length_timeOption, length_changeBytes,
    Nat.reduceLeDiff, Nat.reduceSub, le_refl, Nat.zero_add, Nat.sub_self, natAt_append_right, natAt_append_left,
    shows_right, shows_left, showsInt_right, showsInt_left, showsTime_right, showsTime_left, showsChange_right,
    showsChange_left, natAt_field state, natAt_field fault, natAt_field selected, natAt_field heard, natAt_field counted,
    natAt_field (health _), natAt_field synth, natAt_field zero, ← round, shows_field, showsInt_field, showsInt_option,
    showsTime_option, showsChange_bytes]

/-- The data of READ_TIME (R177). -/
theorem State.length_timeData : s.timeData.length = 15 := by
  simp only [State.timeData, List.length_append, length_field, length_timeOption, length_signedField, Nat.reduceAdd]

theorem State.timeData_shows : TimeShows s s.timeData := by
  have present : natAt (field 1 (bit s.clockValid)) 0 1 = bit s.clockValid := natAt_field (by cases s.clockValid <;> decide)
  rw [State.timeData, List.append_assoc]
  constructor <;> simp only [length_field, length_timeOption, Nat.reduceLeDiff, Nat.reduceSub, le_refl, Nat.zero_add, Nat.sub_self,
    natAt_append_left, showsInt_right, showsTime_right, showsTime_left, present, showsTime_option, showsInt_field]
  rfl

end

/-! ### The snapshot of a peer (R63, R180) -/

section
variable (slot : Fin 32) (p : PeerEntry)

theorem PeerEntry.snapshot_eq : p.snapshot slot =
    field 1 slot.val ++ (field 1 p.state.code ++ (field 2 p.flags ++ (field 4 (p.tag.getD 0)
    ++ (field 1 ((p.peerState.map PeerState.code).getD 0) ++ (field 1 (p.counted.getD 0)
    ++ (field 1 p.observation.code ++ (signedOption 8 p.deviation
    ++ (field 1 p.resultObservation.code ++ (signedOption 8 p.resultDeviation
    ++ (signedOption 8 p.rawLag ++ (field 1 (if p.state = .self then 0 else p.lagAge.code)
    ++ (field 2 (p.delay.getD 0) ++ (field 2 p.delayAge
    ++ (field 1 p.goodStreak ++ (field 1 p.wildStreak ++ (field 1 p.absentStreak
    ++ (signedOption 4 p.anchorOffset ++ (signedOption 4 p.labelOffset ++ noticeBytes p.notice)))))))))))))))))) := by
  delta PeerEntry.snapshot
  simp only [List.append_assoc]

@[simp] theorem length_noticeBytes (n : Option LabelNotice) : (noticeBytes n).length = 10 := by
  cases n <;> simp [noticeBytes]

theorem noticeBytes_shows (n : Option LabelNotice) :
    ShowsInt (noticeBytes n) 0 4 ((n.map (·.offset)).getD 0) ∧ Shows (noticeBytes n) 4 6 ((n.map (·.second)).getD 0) := by
  cases n with
  | none => exact ⟨fun _ _ => by decide, fun _ => by decide⟩
  | some n =>
    rw [noticeBytes, Option.map_some, Option.getD_some, LabelNotice.bytes, showsInt_left (by simp), shows_right (by simp)]
    exact ⟨showsInt_field _ _, by simpa using shows_field _ _⟩

theorem PeerEntry.length_snapshot : (p.snapshot slot).length = 62 := by
  rw [PeerEntry.snapshot_eq]
  simp only [List.length_append, length_field, length_signedOption, length_noticeBytes, Nat.reduceAdd]

theorem PeerEntry.snapshot_shows : PeerShows slot p (p.snapshot slot) := by
  have slot_lt : slot.val < 256 ^ 1 := slot.isLt.trans (by decide)
  have state : p.state.code < 256 ^ 1 := by cases p.state <;> decide
  have flags : natAt (field 2 p.flags) 0 2 = p.flags := natAt_field (flagBits_fits (by decide : 11 ≤ 16))
  have peerState : (p.peerState.map PeerState.code).getD 0 < 256 ^ 1 := by
    rcases p.peerState with _ | x
    · decide
    · cases x <;> decide
  have observation (o : Observation) : o.code < 256 ^ 1 := by cases o <;> decide
  have age : (if p.state = .self then 0 else p.lagAge.code) < 256 ^ 1 := by
    split
    · decide
    · cases p.lagAge <;> decide
  obtain ⟨offset, second⟩ := noticeBytes_shows p.notice
  rw [PeerEntry.snapshot_eq]
  constructor
  case presence =>
    intro i
    rw [← testBit_flagBits]
    simp only [length_field, Nat.reduceLeDiff, Nat.reduceSub, le_refl, Nat.zero_add, natAt_append_right, natAt_append_left, flags]
    rfl
  case lagAge =>
    intro other
    simp only [length_field, length_signedOption, Nat.reduceLeDiff, Nat.reduceSub, le_refl, Nat.zero_add, Nat.sub_self,
      natAt_append_right, natAt_append_left, if_neg other]
    cases p.lagAge <;> rfl
  all_goals simp only [length_field, length_signedOption, Nat.reduceLeDiff, Nat.reduceSub, le_refl,
    Nat.zero_add, Nat.sub_self, natAt_append_right, natAt_append_left, shows_right, shows_left, showsInt_right, showsInt_left,
    natAt_field slot_lt, natAt_field state, natAt_field peerState, natAt_field (observation _), shows_field, showsInt_option,
    offset, second]

end

/-! ### The snapshot of a generator (R146, R180) -/

section
variable (i : Fin 4) (g : Generator)

theorem Generator.snapshot_eq : g.snapshot i =
    field 1 i.val ++ (field 1 g.flags ++ (field 1 ((g.latched.map (·.state.code)).getD 0) ++ (field 1 g.state.code
    ++ (field 8 ((g.latched.map (·.number)).getD 0) ++ (timeOption (g.latched.map (·.time))
    ++ (field 2 g.rephaseCount ++ bytesOf 4 (((g.latched.bind (·.word)).map BitVec.toNat).getD 0))))))) := by
  delta Generator.snapshot
  simp only [List.append_assoc]

theorem Generator.length_snapshot : (g.snapshot i).length = 28 := by
  rw [Generator.snapshot_eq]
  simp only [List.length_append, length_field, length_timeOption, length_bytesOf, Nat.reduceAdd]

theorem Generator.snapshot_shows : GeneratorShows i g (g.snapshot i) := by
  have index : i.val < 256 ^ 1 := i.isLt.trans (by decide)
  have flags : natAt (field 1 g.flags) 0 1 = g.flags := natAt_field (flagBits_fits (by decide : 4 ≤ 8))
  have code (x : GenState) : x.code < 256 ^ 1 := by cases x <;> decide
  have stateThen : (g.latched.map (·.state.code)).getD 0 < 256 ^ 1 := by
    rcases g.latched with _ | l
    · decide
    · exact code l.state
  have word : natAt (bytesOf 4 (((g.latched.bind (·.word)).map BitVec.toNat).getD 0)) 0 4 =
      ((g.latched.bind (·.word)).map BitVec.toNat).getD 0 := by
    rw [natAt_bytesOf]
    refine Nat.mod_eq_of_lt ?_
    rcases g.latched.bind (·.word) with _ | w
    · decide
    · exact w.isLt
  rw [Generator.snapshot_eq]
  constructor
  case flags =>
    intro j
    rw [← testBit_flagBits]
    simp only [length_field, Nat.reduceSub, le_refl, Nat.zero_add, natAt_append_right, natAt_append_left, flags]
    rfl
  all_goals simp only [length_field, length_timeOption, Nat.reduceLeDiff, Nat.reduceSub, le_refl, Nat.zero_add, Nat.sub_self,
    natAt_append_right, natAt_append_left, shows_right, shows_left, showsTime_right, showsTime_left, natAt_field index,
    natAt_field stateThen, natAt_field (code _), shows_field, showsTime_option, word]

end

/-! ### The notice record (R181) -/

theorem natAt_zeros (m o n : Nat) : natAt (List.replicate m (0#8 : Byte)) o n = 0 := by
  have zeros (k : Nat) : natOf (List.replicate k (0#8 : Byte)) = 0 := by
    induction k with
    | zero => rfl
    | succ k ih => rw [List.replicate_succ, natOf_cons, ih]; simp
  rw [natAt, part, List.drop_replicate, List.take_replicate, zeros]

/-- The detail bytes stand from byte 13 on (R181). -/
theorem Notice.detail_shows (n : Notice) {before : List Byte} (after : List Byte) (length : before.length = 13) :
    DetailShows (before ++ (n.detail ++ after)) n := by
  have byte {v : Nat} (small : v < 256) : natAt (field 1 v) 0 1 = v := natAt_field small
  have station (x : StationState) := byte (v := x.code) (by cases x <;> decide)
  have cause (x : Cause) := byte (v := x.code) (by cases x <;> decide)
  have source (x : Source) := byte (v := x.code) (by cases x <;> decide)
  have failCause (x : FailCause) : natAt (field 1 x.code) 0 1 = if x = .windows then 1 else 2 := by
    rw [byte (by cases x <;> decide)]; cases x <;> rfl
  have failAction (x : FailAction) : natAt (field 1 x.code) 0 1 = if x = .switched then 1 else if x = .lost then 2 else 3 := by
    rw [byte (by cases x <;> decide)]; cases x <;> rfl
  have origin (x : StepOrigin) : natAt (field 1 x.code) 0 1 = if x = .joining then 1 else if x = .estimate then 2 else 3 := by
    rw [byte (by cases x <;> decide)]; cases x <;> rfl
  have anchor (x : AnchorCause) := byte (v := x.code) (by cases x <;> decide)
  have flag (x : Bool) : natAt (field 1 (bit x)) 0 1 = yesNo x := byte (v := bit x) (by cases x <;> decide)
  have slotByte (x : Fin 32) := byte (v := x.val) (by omega)
  have gen (x : Fin 4) := byte (v := x.val) (by omega)
  have way (x : Bool) := byte (v := if x then 1 else 2) (by cases x <;> decide)
  cases n
  case slotConflict slot tag =>
    cases tag <;> simp only [DetailShows, Notice.detail, List.append_assoc, length, natAt_append_right, natAt_append_left,
      shows_right, shows_left, length_field, Nat.reduceLeDiff, Nat.reduceSub, le_refl, Nat.sub_self, Nat.zero_add, shows_field, cause,
      slotByte, Option.isSome_none, Option.isSome_some, Option.getD_none, Option.getD_some, if_true, Bool.false_eq_true, if_false,
      and_self]
  case anchorUnlabelled time =>
    have shows := showsTime_option (some time)
    rw [timeOption, Option.getD_some] at shows
    simp only [DetailShows, Notice.detail, length, showsTime_right, showsTime_left, length_timeField, le_refl, Nat.sub_self,
      Nat.zero_add, shows]
  case labelPending c =>
    have bytes : (Notice.labelPending c).detail = changeBytes (some c) ++ field 1 c.origin.slotByte := by
      simp only [Notice.detail, changeBytes, List.append_assoc]
    have adopter : natAt (field 1 c.origin.slotByte) 0 1 = c.origin.slotByte := byte (by
      cases c.origin with
      | originated => decide
      | adopted slot => exact slot.isLt.trans (by decide))
    rw [bytes, List.append_assoc, DetailShows, showsChange_right (by rw [length]), natAt_append_right (by rw [length]; decide),
      length, showsChange_left (by rw [length_changeBytes]), natAt_append_right (by rw [length_changeBytes]),
      length_changeBytes, natAt_append_left (by rw [length_field])]
    refine ⟨showsChange_bytes _, adopter.trans ?_⟩
    cases c.origin <;> rfl
  case anchorChanged valid c =>
    simp only [DetailShows, Notice.detail, List.append_assoc, length, natAt_append_right, natAt_append_left, length_field,
      Nat.reduceLeDiff, Nat.reduceSub, le_refl, Nat.sub_self, Nat.zero_add, flag, anchor]
    exact ⟨trivial, by cases c <;> rfl⟩
  all_goals simp only [DetailShows, Notice.detail, slotTag, List.append_assoc, length, natAt_append_right, natAt_append_left,
    shows_right, shows_left, showsInt_right, showsInt_left, showsChange_left, showsChange_right, length_field,
    length_signedField, length_changeBytes, Nat.reduceLeDiff, Nat.reduceSub, le_refl, Nat.sub_self, Nat.zero_add, shows_field,
    showsInt_field, showsChange_bytes, station, cause, source, failCause, failAction, origin, flag, slotByte, gen, way,
    and_self]

theorem PendingRecord.bytes_shows (r : PendingRecord) : RecordShows r r.bytes := by
  have kind : natAt (field 1 r.detail.kind.val) 0 1 = r.detail.kind.val := natAt_field (by omega)
  have present : natAt (field 1 (bit r.time.isSome)) 0 1 = yesNo r.time.isSome := natAt_field (by cases r.time.isSome <;> decide)
  have front : (field 1 r.detail.kind.val ++ field 1 r.repeats ++ field 1 (bit r.time.isSome) ++ timeOption r.time).length =
      13 := by simp only [List.length_append, length_field, length_timeOption, Nat.reduceAdd]
  constructor
  case detail => exact r.detail.detail_shows _ front
  case rest =>
    intro i beyond inside
    rw [← r.detail.length_detail] at beyond
    rw [PendingRecord.bytes, natAt_append_right (by rw [front]; omega), front, Nat.add_sub_cancel_left, natAt_append_right beyond]
    exact natAt_zeros _ _ _
  all_goals
    rw [PendingRecord.bytes]
    simp only [List.append_assoc, length_field, length_timeOption, Nat.reduceLeDiff, Nat.reduceSub, le_refl, Nat.sub_self,
      Nat.zero_add, natAt_append_right, natAt_append_left, shows_right, shows_left, showsTime_right, showsTime_left, kind,
      present, shows_field, showsTime_option]

/-! ### What the port sends (R159, R177) -/

section
variable {p : Port} {n i : Nat}

theorem Port.sends_request (receiving : i < n) : p.sends n i = 0xFF#8 := if_pos receiving

theorem Port.sends_filling (filling : p.filling = true) : p.sends n i = 0xFF#8 := by
  rw [Port.sends, Port.byteAt, if_pos filling, ite_self]

theorem Port.sends_past (past : n + p.response.length ≤ i) : p.sends n i = 0xFF#8 := by
  have fill : p.byteAt (i - n) = 0xFF#8 := by
    rw [Port.byteAt, List.getD_eq_getElem?_getD, List.getElem?_eq_none (by omega), Option.getD_none, ite_self]
  rw [Port.sends, fill, ite_self]

theorem Port.sends_response (receives : p.filling = false) (inside : i < p.response.length) :
    p.response[i]? = some (p.sends n (n + i)) := by
  rw [Port.sends, if_neg (Nat.le_add_right n i).not_gt, Nat.add_sub_cancel_left, Port.byteAt,
    if_neg (by rw [receives]; exact Bool.false_ne_true), List.getD_eq_getElem?_getD, List.getElem?_eq_getElem inside]
  rfl

end

/-! ### The commands (R63, R146, R165) -/

theorem natAt_single (b : Byte) : natAt [b] 0 1 = b.toNat := by simp [natAt, natOf, part]

section
variable (dt : Elapsed) (s : State)

theorem refusePlace_out {n : Nat} {b : Byte} (out : n ≤ b.toNat) : refusePlace n [b] = some (.refusedValue 1) :=
  gate_value rfl rfl (if_neg (by rw [natAt_single]; exact out.not_gt))

theorem refusePlace_inside {n : Nat} {b : Byte} (inside : b.toNat < n) : refusePlace n [b] = none :=
  gate_own rfl rfl (if_pos (by rwa [natAt_single]))

theorem exec_readPeer_out {b : Byte} (out : 32 ≤ b.toNat) :
    exec (.readPeer dt [b]) s = .next ((s.request dt).answer (.refusedValue 1) []) :=
  exec_readPeer_refused (refusePlace_out out)

theorem exec_readPeer_named {b : Byte} (slot : Fin 32) (named : b.toNat = slot.val) : exec (.readPeer dt [b]) s =
    .next ((s.request dt).answer .ok (((s.request dt).peers.entries[slot]).snapshot slot)) := by
  have place : Fin.ofNat 32 (natAt [b] 0 1) = slot := by
    rw [natAt_single, named]
    exact Fin.ofNat_val_eq_self slot
  rw [exec_readPeer, place, refusePlace_inside (named ▸ slot.isLt)]
  rfl

theorem exec_readGenerator_out {b : Byte} (out : 4 ≤ b.toNat) :
    exec (.readGenerator dt [b]) s = .next ((s.request dt).answer (.refusedValue 1) []) :=
  exec_readGenerator_refused (refusePlace_out out)

theorem exec_readGenerator_named {b : Byte} (i : Fin 4) (named : b.toNat = i.val) : exec (.readGenerator dt [b]) s =
    .next ((s.request dt).answer .ok (((s.request dt).gens[i]).snapshot i)) := by
  have place : Fin.ofNat 4 (natAt [b] 0 1) = i := by
    rw [natAt_single, named]
    exact Fin.ofNat_val_eq_self i
  rw [exec_readGenerator, place, refusePlace_inside (named ▸ i.isLt)]
  rfl

end

theorem codesOfTheManual : CodesOfTheManual :=
  ⟨rfl, rfl, rfl, rfl, fun _ => rfl, rfl, rfl, rfl, rfl, rfl, rfl, rfl, rfl⟩

/-- Settles O16. -/
theorem snapshotsRead : Obligations.SnapshotsRead := by
  refine ⟨fun dt s => ⟨rfl, rfl, rfl, fun slot => ?peer, fun i => ?generator,
    fun b out => exec_readPeer_out dt s out, fun b out => exec_readGenerator_out dt s out, State.length_statusSnapshot _,
    State.length_timeData _, fun slot p => p.length_snapshot slot, fun i g => g.length_snapshot i,
    PendingRecord.length_bytes⟩, codesOfTheManual, fun s => ⟨s.statusSnapshot_shows, s.timeData_shows⟩,
    fun slot p => p.snapshot_shows slot, fun i g => g.snapshot_shows i, PendingRecord.bytes_shows,
    fun p n i => ⟨Port.sends_request, Port.sends_filling, Port.sends_past, Port.sends_response⟩⟩
  case peer => exact exec_readPeer_named dt s slot (by rw [BitVec.toNat_ofNat]; omega)
  case generator => exact exec_readGenerator_named dt s i (by rw [BitVec.toNat_ofNat]; omega)

end Sys2Proof.Machine
end

section
/-! PROOFS. The events that come when a length of time has run (R93, R106, R114, R134, R157). -/

namespace Sys2Proof.Machine

section
variable {s : State}

/-! ### Label changes (R114) -/

theorem State.reached_of_reading {a second : Nat} (reading : s.reading = some a) :
    s.reached second = decide (second * 1000000000 ≤ a) := by
  rw [State.reached, reading]

/-- A pending label change is applied exactly where its instant has been reached. -/
theorem State.applyDue_of_change {c : LabelChange} {a : Nat} (change : s.anchor.change = some c) (reading : s.reading = some a) :
    s.applyDue = if c.second * 1000000000 ≤ a then s.applyChange c else s := by
  simp only [State.applyDue, change, State.reached_of_reading reading, decide_eq_true_eq]

/-! ### The anchor silent (R106) -/

/-- An anchor cleared: the three items it loses, and ANCHOR_CHANGED where it was valid. -/
theorem State.dropAnchor_frame (c : AnchorCause) (s : State) : s.dropAnchor c =
    (s.setAnchor { s.anchor with offset := none, streak := 0, valid := false }).setNotices (s.dropAnchor c).notices := by
  unfold State.dropAnchor
  dsimp only
  split <;> rfl

theorem State.dropAnchor_reports (c : AnchorCause) (valid : s.anchor.valid = true) :
    Reports s (s.dropAnchor c) (.anchorChanged false c) := by
  rw [State.dropAnchor, if_pos valid]
  exact (Reports.raise _ _).before rfl

theorem State.dropAnchor_notices (c : AnchorCause) (invalid : s.anchor.valid = false) :
    (s.dropAnchor c).notices = s.notices := by
  rw [State.dropAnchor, if_neg (by rw [invalid]; exact Bool.false_ne_true)]
  rfl

theorem State.silenceIf_of_reached (clock : s.reading.isSome = true) (silent : 3000000000 * 1000000000 ≤ s.anchor.silence) :
    s.silenceIf = s.dropAnchor .silence := by
  have valid : s.clockValid = true := by
    rw [State.clockValid]
    rwa [State.reading, Option.isSome_map] at clock
  exact if_pos (Bool.and_eq_true_iff.mpr ⟨valid, decide_eq_true silent⟩)

theorem State.silenceIf_of_early (early : s.anchor.silence < 3000000000 * 1000000000) : s.silenceIf = s :=
  if_neg fun reached => early.not_ge (of_decide_eq_true (Bool.and_eq_true_iff.mp reached).2)

/-! ### The slew spent (R93) -/

theorem State.slewIf_of_slew {c : Nat} {w : Slew} (clock : s.discipline.clock = some c) (slew : s.discipline.slew = some w) :
    s.slewIf = if w.endAt ≤ c then s.setDiscipline { s.discipline with slew := none } else s := by
  simp only [State.slewIf, State.slewReached, clock, slew, decide_eq_true_eq]

/-! ### Pins and words (R134, R157) -/

theorem Generator.lower_of_high {g : Generator} {n : Nat} (high : g.pinHighUntil = some n) (now : Nat) :
    g.lower now = if n ≤ now then { g with pinHighUntil := none } else g := by
  simp only [Generator.lower, high]

theorem State.lowerPin_gen (i j : Fin 4) (s : State) :
    (s.lowerPin i).gens[j] = if i = j then (s.gens[i]).lower s.synthTime else s.gens[j] := put_get ..

theorem Timecode.finish_of_output {t : Timecode} {w : Sending} (output : t.output = some w) (now : Nat) :
    t.finish now = if w.doneAt ≤ now then { t with output := none } else t := by
  simp only [Timecode.finish, output]

end

/-- Settles O52: each of the five events, its instant reached and before it. -/
theorem timedEventsTaken : Obligations.TimedEventsTaken := by
  intro dt s u
  refine ⟨fun x a change reading => ?label, ?silent, fun early => congrArg _ (State.silenceIf_of_early early),
    fun c w clock slew => ?slew, fun i n high => ?pin, fun w output => ?word⟩
  case label =>
    have takes : exec (.labelApplied dt) s = .next (if x.second * 1000000000 ≤ a then u.applyChange x else u) :=
      congrArg Host.Outcome.next (State.applyDue_of_change change reading)
    exact ⟨fun due => by rw [takes, if_pos due]; rfl, fun early => by rw [takes, if_neg early.not_ge]⟩
  case silent =>
    exact fun clock silent => ⟨_, congrArg Host.Outcome.next (State.silenceIf_of_reached clock silent),
      State.dropAnchor_frame .silence u, State.dropAnchor_reports .silence, State.dropAnchor_notices .silence⟩
  case slew =>
    have takes : exec (.slewSpent dt) s =
        .next (if w.endAt ≤ c then u.setDiscipline { u.discipline with slew := none } else u) :=
      congrArg Host.Outcome.next (State.slewIf_of_slew clock slew)
    exact ⟨fun due => by rw [takes, if_pos due], fun early => by rw [takes, if_neg early.not_ge]⟩
  case pin =>
    have lower := Generator.lower_of_high high u.synthTime
    refine ⟨fun due => ⟨_, rfl, rfl, ?_, fun j other => ?_⟩, fun early => ⟨_, rfl, rfl, fun j => ?_⟩⟩
    · rw [State.lowerPin_gen, if_pos rfl, lower, if_pos due]
    · rw [State.lowerPin_gen, if_neg (Ne.symm other)]
    · rw [State.lowerPin_gen, lower, if_neg early.not_ge]
      exact ite_eq_right_iff.mpr fun same => by rw [same]
  case word =>
    have takes : exec (.timecodeWordSent dt) s =
        .next (u.setTimecode (if w.doneAt ≤ u.synthTime then { u.timecode with output := none } else u.timecode)) :=
      congrArg (fun t => Host.Outcome.next (u.setTimecode t)) (Timecode.finish_of_output output u.synthTime)
    exact ⟨fun due => by rw [takes, if_pos due], fun early => by rw [takes, if_neg early.not_ge]⟩

end Sys2Proof.Machine
end

section
/-! PROOFS. LABEL_CHANGE, and the label notices of the contributors (R111 to R113). -/

namespace Sys2Proof.Machine

/-! ### LABEL_CHANGE (R111) -/

section
variable {s : State} {second a : Nat}

theorem State.refuseChangeOwn_pending (pending : s.anchor.change.isSome = true) :
    s.refuseChangeOwn second = some .refusedPending := if_pos pending

theorem State.refuseChangeOwn_soon (free : s.anchor.change = none) (reading : s.reading = some a)
    (soon : second < a / 1000000000 + 2) : s.refuseChangeOwn second = some (.refusedValue 2) := by
  rw [State.refuseChangeOwn, if_neg (by simp [free]), reading]
  exact if_pos soon

theorem State.refuseChangeOwn_none (free : s.anchor.change = none) (reading : s.reading = some a)
    (ahead : a / 1000000000 + 2 ≤ second) : s.refuseChangeOwn second = none := by
  rw [State.refuseChangeOwn, if_neg (by simp [free]), reading]
  exact if_neg ahead.not_gt

end

/-! ### The notices offered (R112) -/

section
variable {cs : List (Fin 32)} {s : State} {i : Fin 32} {n : LabelNotice} {a : Nat}

/-- What one entry offers. -/
def State.offerOf (s : State) (i : Fin 32) : Option (Fin 32 × LabelNotice) :=
  match (s.peers.entries[i]).anchored, (s.peers.entries[i]).notice with
  | true, some n => if s.reached n.second && n.offset == s.anchor.labelOffset then none else some (i, n)
  | _, _ => none

theorem State.offered_eq (cs : List (Fin 32)) (s : State) : s.offered cs = cs.filterMap s.offerOf := rfl

theorem State.offerOf_eq_some (reading : s.reading = some a) {x : Fin 32 × LabelNotice} : s.offerOf i = some x ↔
    x.1 = i ∧ (s.peers.entries[i]).anchored = true ∧ (s.peers.entries[i]).notice = some x.2 ∧
      ¬(x.2.second * 1000000000 ≤ a ∧ x.2.offset = s.anchor.labelOffset) := by
  obtain ⟨j, m⟩ := x
  unfold State.offerOf
  cases anchored : (s.peers.entries[i]).anchored <;> cases notice : (s.peers.entries[i]).notice <;>
    simp [State.reached_of_reading reading, Prod.ext_iff]
  grind

theorem State.mem_offered (reading : s.reading = some a) : (i, n) ∈ s.offered cs ↔
    i ∈ cs ∧ (s.peers.entries[i]).anchored = true ∧ (s.peers.entries[i]).notice = some n ∧
      ¬(n.second * 1000000000 ≤ a ∧ n.offset = s.anchor.labelOffset) := by
  simp only [State.offered_eq, List.mem_filterMap, State.offerOf_eq_some reading]
  constructor
  · rintro ⟨_, mem, rfl, rest⟩
    exact ⟨mem, rest⟩
  · exact fun ⟨mem, rest⟩ => ⟨i, mem, rfl, rest⟩

/-- The offers stand in slot order where the entries do. -/
theorem State.offered_sorted (reading : s.reading = some a) (sorted : cs.Pairwise (· < ·)) :
    (s.offered cs).Pairwise fun x y => x.1 < y.1 := by
  refine sorted.filterMap _ fun i j before x hx y hy => ?_
  rw [((State.offerOf_eq_some reading).mp hx).1, ((State.offerOf_eq_some reading).mp hy).1]
  exact before

theorem State.contributors_sorted (s : State) : s.contributors.Pairwise (· < ·) :=
  (List.pairwise_lt_finRange 32).filter _

end

/-! ### What the notices offered come to (R112, R113) -/

section
variable {cs : List (Fin 32)} {s : State} {i : Fin 32} {n : LabelNotice} {rest : List (Fin 32 × LabelNotice)}

theorem State.examineLabels_of_none (none : s.offered cs = []) : s.examineLabels cs = s := by
  simp only [State.examineLabels, none, List.map_nil, List.dedup_nil]

section
variable (offers : s.offered cs = (i, n) :: rest) (single : ((s.offered cs).map (·.2)).dedup = [n])
include offers single

theorem State.examineLabels_adopts (free : s.anchor.change = none) : s.examineLabels cs = s.adopt i n := by
  simp only [State.examineLabels, single, free]
  rw [offers]

theorem State.examineLabels_same {c : LabelChange} (change : s.anchor.change = some c)
    (same : c.offset = n.offset ∧ c.second = n.second) : s.examineLabels cs = s := by
  simp only [State.examineLabels, single, change]
  rw [offers]
  exact if_pos same

theorem State.examineLabels_other {c : LabelChange} (change : s.anchor.change = some c)
    (other : ¬(c.offset = n.offset ∧ c.second = n.second)) : s.examineLabels cs = s.labelConflict 1 := by
  simp only [State.examineLabels, single, change]
  rw [offers]
  exact if_neg other

end

theorem State.examineLabels_of_many (many : 2 ≤ ((s.offered cs).map (·.2)).dedup.length) :
    s.examineLabels cs = s.labelConflict ((s.offered cs).map (·.2)).dedup.length := by
  unfold State.examineLabels
  dsimp only
  split
  next single => rw [single] at many; simp at many
  next none => rw [none] at many; simp at many
  next => rfl

/-- Offers that all show one notice show it once. -/
theorem dedup_of_single {l : List (Fin 32 × LabelNotice)} (some_ : l ≠ []) (all : ∀ x ∈ l, x.2 = n) :
    (l.map (·.2)).dedup = [n] := by
  have same : l.map (·.2) = List.replicate l.length n :=
    List.eq_replicate_iff.mpr ⟨List.length_map _, fun b mem => by
      obtain ⟨x, hx, rfl⟩ := List.mem_map.mp mem
      exact all x hx⟩
  rw [same, List.replicate_dedup (by simpa using some_)]

/-- A notice adopted: pending, and applied at once where its instant has been reached. -/
theorem State.adopt_spec {a : Nat} (reading : s.reading = some a) (i : Fin 32) (n : LabelNotice) :
    let c : LabelChange := ⟨n.offset, n.second, .adopted i⟩; let t := s.adopt i n
    Reports s t (.labelPending c) ∧ t = (s.setAnchor t.anchor).setNotices t.notices ∧
      (a < n.second * 1000000000 → t.anchor = { s.anchor with change := some c }) ∧
      (n.second * 1000000000 ≤ a →
        t.anchor = { s.anchor with labelOffset := n.offset, change := none, appliedAt := some s.synthTime } ∧
        Reports s t (.labelApplied n.offset n.second)) := by
  intro c t
  obtain ⟨u, hu⟩ : ∃ u, u = (s.setAnchor { s.anchor with change := some c }).raise (.labelPending c) := ⟨_, rfl⟩
  have pending : Reports s u (.labelPending c) := by
    rw [hu]
    exact (Reports.raise _ _).before rfl
  have framed : u = (s.setAnchor { s.anchor with change := some c }).setNotices u.notices := by rw [hu]; rfl
  have applies : t = if n.second * 1000000000 ≤ a then u.applyChange c else u := by
    rw [show t = u.applyDue by rw [hu]; rfl]
    exact State.applyDue_of_change (c := c) (by rw [framed]; rfl) (by rw [framed]; exact reading)
  rcases lt_or_ge a (n.second * 1000000000) with early | due
  · rw [if_neg early.not_ge] at applies
    rw [applies]
    exact ⟨pending, by rw [framed]; rfl, fun _ => by rw [framed]; rfl, fun due => absurd early due.not_gt⟩
  · rw [if_pos due] at applies
    have enables : u.notices.enables = s.notices.enables := by rw [hu]; exact raise_enables _ _
    rw [applies]
    refine ⟨?_, ?_, fun early => absurd early due.not_gt, fun _ => ⟨?_, ?_⟩⟩
    · exact (State.SilentOn.raise (k := 21) (n := .labelApplied n.offset n.second) (s := u) rfl
      (by decide : (21 : Fin 27) ≠ 22)).after pending
    · rw [framed]; rfl
    · rw [framed]; rfl
    · exact ((Reports.raise _ _).before rfl : Reports u (u.applyChange c) (.labelApplied n.offset n.second)).before enables

end

/-- Settles O12: the command by its checks in order; the notices by what the contributors offer. -/
theorem labelChangeTested : Obligations.LabelChangeTested := by
  refine ⟨?command, ?notices⟩
  case command =>
    intro dt ps s q
    refine ⟨fun length state => ?state, fun length agreed enabled => ⟨fun out => ?offset, fun low high pending => ?pending,
      fun a reading low high free => ⟨fun soon => ?soon, fun ahead => ?taken⟩⟩⟩
    case state =>
      exact exec_labelChange_refused (State.refuseChange_state length (by
        rintro ⟨agreed, enabled⟩
        rcases state with other | disabled
        · exact other agreed
        · rw [enabled] at disabled
          cases disabled))
    case offset => exact exec_labelChange_refused (State.refuseChange_value length agreed enabled out)
    case pending =>
      exact exec_labelChange_refused
        ((State.refuseChange_own length agreed enabled low high).trans (State.refuseChangeOwn_pending pending))
    case soon =>
      exact exec_labelChange_refused
        ((State.refuseChange_own length agreed enabled low high).trans (State.refuseChangeOwn_soon free reading soon))
    case taken =>
      have accepted := (State.refuseChange_own length agreed enabled low high).trans
        (State.refuseChangeOwn_none free reading ahead)
      have goes : exec (.labelChange dt ps) s =
          .next (q.serve none noData (·.takeChange (intAt ps 0 4) (natAt ps 4 6))) := by rw [exec_labelChange, accepted]
      rw [State.serve_noData] at goes
      have said : Reports q (q.takeChange (intAt ps 0 4) (natAt ps 4 6))
          (.labelPending ⟨intAt ps 0 4, natAt ps 4 6, .originated⟩) := (Reports.raise _ _).before rfl
      exact ⟨_, goes, rfl, rfl, said, rfl, rfl, rfl, rfl, rfl, rfl, rfl, rfl⟩
  case notices =>
    intro s a t offers reading
    have mem (i : Fin 32) (n : LabelNotice) : (i, n) ∈ s.offered s.contributors ↔ offers i n := State.mem_offered reading
    refine ⟨fun none => ?none, fun i n offer least => ?single, fun l nodup all many => ?many, fun state few => ?point⟩
    case none => exact State.examineLabels_of_none (List.eq_nil_iff_forall_not_mem.mpr fun ⟨i, n⟩ h => none i n ((mem i n).mp h))
    case single =>
      have once : ((s.offered s.contributors).map (·.2)).dedup = [n] :=
        dedup_of_single (List.ne_nil_of_mem ((mem i n).mpr offer)) fun ⟨j, m⟩ h => (least j m ((mem j m).mp h)).1
      obtain ⟨rest, first⟩ : ∃ rest, s.offered s.contributors = (i, n) :: rest := by
        have sorted := State.offered_sorted reading s.contributors_sorted
        have here := (mem i n).mpr offer
        cases listed : s.offered s.contributors with
        | nil => rw [listed] at here; cases here
        | cons x rest =>
          obtain ⟨same, below⟩ := least x.1 x.2 ((mem _ _).mp (by rw [listed]; exact List.mem_cons_self))
          rw [listed] at here sorted
          have slot : x.1 = i := by
            rcases List.mem_cons.mp here with equal | later
            · rw [← equal]
            · exact absurd (List.rel_of_pairwise_cons sorted later) below.not_gt
          exact ⟨rest, by rw [← slot, ← same]⟩
      refine ⟨fun free => ?_, fun c change => ⟨fun same => State.examineLabels_same first once change same, fun other => ?_⟩⟩
      · have adopted := State.examineLabels_adopts first once free
        intro c
        rw [show t = s.adopt i n from adopted]
        exact State.adopt_spec reading i n
      · rw [show t = s.labelConflict 1 from State.examineLabels_other first once change other, State.labelConflict, change]
    case many =>
      have perm : ((s.offered s.contributors).map (·.2)).dedup.Perm l := by
        refine (List.perm_ext_iff_of_nodup (List.nodup_dedup _) nodup).mpr fun n => ?_
        rw [List.mem_dedup, List.mem_map, all]
        constructor
        · rintro ⟨⟨i, m⟩, listed, rfl⟩
          exact ⟨i, (mem i m).mp listed⟩
        · exact fun ⟨i, offer⟩ => ⟨(i, n), (mem i n).mpr offer, rfl⟩
      rw [← perm.length_eq] at many ⊢
      exact State.examineLabels_of_many many
    case point =>
      rcases state with agreed | isolated
      · have quorum : s.steered.quorum = false := by
          rw [s.steered_reads.2.2.2.1, State.quorum_of_agreed agreed]
          exact decide_eq_false few.not_ge
        rw [State.agreementPoint_agreed s agreed, State.pointAgreed_short quorum]
        rcases lt_or_ge s.steered.agreement.shortRounds 7 with early | late
        · rw [State.shortAgreed_few early]
          simp [State.steered, t]
        · rw [State.shortAgreed_eighth late]
          simp [State.steered, t]
      · have quorum : s.quorum = false := by
          rw [State.quorum_of_not_joining (by rw [isolated]; exact StationState.noConfusion)]
          exact decide_eq_false few.not_ge
        rw [State.agreementPoint_isolated_short isolated quorum]
        simp [t]

end Sys2Proof.Machine
end

section
/-! PROOFS. The timecode numberings (R152 to R155). -/

namespace Sys2Proof.Machine

/-! ### Integer and short-day rates (R152, R154) -/

/-- The number of a count within the day is its hours, minutes, seconds and frames. -/
theorem plainNumber_of_day {r c : Nat} (rate : 0 < r) (day : c < 86400 * r) : let t := plainNumber r c
    t.hours < 24 ∧ t.minutes < 60 ∧ t.seconds < 60 ∧ t.frames < r ∧ t.drop = false ∧ t.hold = false ∧
      ((t.hours * 60 + t.minutes) * 60 + t.seconds) * r + t.frames = c := by
  have seconds : c / r < 86400 := Nat.div_lt_of_lt_mul (by rwa [mul_comm] at day)
  have hours : c / r / 3600 < 24 := by omega
  have minutes : c / r % 3600 / 60 < 60 := by omega
  have whole : (c / r / 3600 * 60 + c / r % 3600 / 60) * 60 + c / r % 60 = c / r := by omega
  refine ⟨hours, minutes, Nat.mod_lt _ (by decide), Nat.mod_lt _ rate, rfl, rfl, ?_⟩
  change ((c / r / 3600 * 60 + c / r % 3600 / 60) * 60 + c / r % 60) * r + c % r = c
  rw [whole]
  exact Nat.div_add_mod' c r

/-! ### Drop-frame rates (R153, R155) -/

/-- The drop-frame rates: frames a second, numbers skipped, and counts in a day (R153). -/
def DropRate (f skip total : Nat) : Prop :=
  (f = 30 ∧ skip = 2 ∧ total = 2589408) ∨ (f = 60 ∧ skip = 4 ∧ total = 5178816)

/-- Where in its ten-minute block a count lies: the minute, and the frame numbers of it up to the count (R153). -/
theorem dropPlace {f skip total place : Nat} (rate : DropRate f skip total) (inside : place < dropBlock f skip) :
    let minute := if place < 60 * f then 0 else (place - 60 * f) / (60 * f - skip) + 1
    let within := if place < 60 * f then place else (place - 60 * f) % (60 * f - skip) + skip
    minute < 10 ∧ within < 60 * f ∧ (minute ≠ 0 → skip ≤ within) ∧ minute * (60 * f) + within = place + skip * minute := by
  unfold dropBlock at inside
  dsimp only
  rcases rate with ⟨rfl, rfl, -⟩ | ⟨rfl, rfl, -⟩ <;> split <;> omega

theorem dropNumber_of_day {f skip total c : Nat} (rate : DropRate f skip total) (day : c < total) :
    let t := dropNumber f skip c
    t.hours < 24 ∧ t.minutes < 60 ∧ t.seconds < 60 ∧ t.frames < f ∧ t.drop = true ∧ t.hold = false ∧
      (t.minutes % 10 ≠ 0 → t.seconds = 0 → skip ≤ t.frames) ∧
      ((t.hours * 60 + t.minutes) * 60 + t.seconds) * f + t.frames =
        c + skip * (t.hours * 60 + t.minutes - (t.hours * 60 + t.minutes) / 10) := by
  have before : ¬144 * dropBlock f skip ≤ c := by
    rcases rate with ⟨rfl, rfl, rfl⟩ | ⟨rfl, rfl, rfl⟩ <;> exact day.not_ge
  have positive : 0 < dropBlock f skip := by rcases rate with ⟨rfl, rfl, -⟩ | ⟨rfl, rfl, -⟩ <;> decide
  obtain ⟨single, short, dropped, sum⟩ := dropPlace rate (Nat.mod_lt c positive)
  simp only [dropNumber, if_neg before]
  generalize (if c % dropBlock f skip < 60 * f then 0 else (c % dropBlock f skip - 60 * f) / (60 * f - skip) + 1) = minute at *
  generalize (if c % dropBlock f skip < 60 * f then c % dropBlock f skip else _) = within at *
  have block : c / dropBlock f skip < 144 := Nat.div_lt_of_lt_mul (by rw [mul_comm]; exact not_le.mp before)
  have count : dropBlock f skip * (c / dropBlock f skip) + c % dropBlock f skip = c := Nat.div_add_mod ..
  generalize c / dropBlock f skip = n at *
  generalize c % dropBlock f skip = place at *
  unfold dropBlock at count
  rcases rate with ⟨rfl, rfl, -⟩ | ⟨rfl, rfl, -⟩ <;> refine ⟨?_, ?_, ?_, ?_, trivial, trivial, ?_, ?_⟩ <;> omega

theorem dropNumber_of_end {f skip total c : Nat} (rate : DropRate f skip total) (past : total ≤ c) :
    dropNumber f skip c = ⟨23, 59, 59, f - 1, true, true⟩ := by
  refine if_pos ?_
  rcases rate with ⟨rfl, rfl, rfl⟩ | ⟨rfl, rfl, rfl⟩ <;> exact past

/-- Settles O50: the plain numberings, the ends of the short days, and the drop-frame numberings. -/
theorem timecodeNumbersGiveCounts : Obligations.TimecodeNumbersGiveCounts := by
  refine ⟨fun r f c listed day => ?plain, ⟨by decide, by decide⟩, fun r f skip total c listed => ?drop⟩
  case plain =>
    have number : r.number c = plainNumber f c ∧ 0 < f := by
      simp only [List.mem_cons, Prod.mk.injEq, List.not_mem_nil, or_false] at listed
      rcases listed with ⟨rfl, rfl⟩ | ⟨rfl, rfl⟩ | ⟨rfl, rfl⟩ | ⟨rfl, rfl⟩ | ⟨rfl, rfl⟩ | ⟨rfl, rfl⟩ | ⟨rfl, rfl⟩ | ⟨rfl, rfl⟩ <;>
        exact ⟨rfl, by decide⟩
    obtain ⟨number, rate⟩ := number
    rw [number]
    exact plainNumber_of_day rate day
  case drop =>
    have number : r.number c = dropNumber f skip c ∧ DropRate f skip total := by
      simp only [List.mem_cons, Prod.mk.injEq, List.not_mem_nil, or_false] at listed
      rcases listed with ⟨rfl, rfl, rfl, rfl⟩ | ⟨rfl, rfl, rfl, rfl⟩
      · exact ⟨rfl, .inl ⟨rfl, rfl, rfl⟩⟩
      · exact ⟨rfl, .inr ⟨rfl, rfl, rfl⟩⟩
    obtain ⟨number, rate⟩ := number
    rw [number]
    exact ⟨dropNumber_of_day rate, dropNumber_of_end rate⟩

end Sys2Proof.Machine
end

section
/-! PROOFS. Boundary times, sequences and frame bounds (R131 to R134, R137); the generators on entry into AGREED and into
STANDBY (R135, R142). -/

namespace Sys2Proof.Machine

/-! ### Rates (R131) -/

theorem RateCode.p_pos (r : RateCode) : 0 < r.p := by cases r <;> decide

theorem RateCode.q_pos (r : RateCode) : 0 < r.q := by cases r <;> decide

theorem lt_ceilDiv_iff {a b k : Nat} (positive : 0 < b) : k < ceilDiv a b ↔ k * b < a := by
  rw [ceilDiv, ← Nat.succ_le_iff, Nat.le_div_iff_mul_le positive, Nat.succ_mul]
  omega

/-! ### Boundary times (R132) -/

section
variable (g : GenSettings)

theorem GenSettings.boundaryTime_eq (k : Nat) :
    g.boundaryTime k = k * g.rate.q * 1000000000 / g.rate.p + g.delay := rfl

/-- The numbers below the first at or after an instant are those whose boundary times lie before it. -/
theorem GenSettings.lt_firstAtOrAfter_iff (x : Int) (k : Nat) : k < g.firstAtOrAfter x ↔ (g.boundaryTime k : Int) < x := by
  have period : 0 < g.rate.q * 1000000000 := Nat.mul_pos g.rate.q_pos (by decide)
  have before : k * g.rate.q * 1000000000 / g.rate.p < (x - g.delay).toNat ↔
      k * (g.rate.q * 1000000000) < (x - g.delay).toNat * g.rate.p := by
    rw [Nat.div_lt_iff_lt_mul g.rate.p_pos, mul_assoc]
  rw [GenSettings.firstAtOrAfter, lt_ceilDiv_iff period, ← before, GenSettings.boundaryTime_eq]
  generalize k * g.rate.q * 1000000000 / g.rate.p = whole
  omega

/-- The first boundary at or after an instant, and no earlier one, lies there. -/
theorem GenSettings.firstAtOrAfter_spec (x : Int) : x ≤ g.boundaryTime (g.firstAtOrAfter x) ∧
    ∀ k, k < g.firstAtOrAfter x → (g.boundaryTime k : Int) < x :=
  ⟨not_lt.mp fun before => lt_irrefl _ ((g.lt_firstAtOrAfter_iff x _).mpr before),
    fun k => (g.lt_firstAtOrAfter_iff x k).mp⟩

end

/-! ### Sequences (R133) -/

section
variable (rate paired : RateCode)

theorem sequence_pos : 0 < rate.p * paired.q := Nat.mul_pos rate.p_pos paired.q_pos

theorem sequenceLength_pos : 0 < sequenceLength rate paired :=
  Nat.div_pos (Nat.gcd_le_left _ (sequence_pos rate paired)) (Nat.gcd_pos_of_pos_left _ (sequence_pos rate paired))

/-- A number of samples spans whole frames of the paired rate exactly where the sequence length divides it. -/
theorem sequenceLength_dvd_iff (m : Nat) : sequenceLength rate paired ∣ m ↔ rate.p * paired.q ∣ m * paired.p := by
  unfold sequenceLength
  have positive := Nat.gcd_pos_of_pos_left paired.p (sequence_pos rate paired)
  generalize rate.p * paired.q = n at *
  have samples : n / n.gcd paired.p * n.gcd paired.p = n := Nat.div_mul_cancel (Nat.gcd_dvd_left n paired.p)
  have frames : paired.p / n.gcd paired.p * n.gcd paired.p = paired.p := Nat.div_mul_cancel (Nat.gcd_dvd_right n paired.p)
  have coprime := Nat.coprime_div_gcd_div_gcd positive
  calc n / n.gcd paired.p ∣ m
      ↔ n / n.gcd paired.p ∣ m * (paired.p / n.gcd paired.p) := coprime.dvd_mul_right.symm
    _ ↔ n / n.gcd paired.p * n.gcd paired.p ∣ m * (paired.p / n.gcd paired.p) * n.gcd paired.p :=
        (Nat.mul_dvd_mul_iff_right positive).symm
    _ ↔ n ∣ m * paired.p := by rw [samples, mul_assoc, frames]

end

/-! ### Markers and pulses (R133, R134) -/

section
variable {g : GenSettings} {k : Nat}

theorem GenSettings.marker_video (video : g.kind = .video) : g.marker k = false := by
  simp only [GenSettings.marker, video]

theorem GenSettings.marker_audio {paired : RateCode} (audio : g.kind = .audio) (pairs : g.paired = some paired) :
    g.marker k = true ↔ sequenceLength g.rate paired ∣ k := by
  simp only [GenSettings.marker, audio, pairs, beq_iff_eq, Nat.dvd_iff_mod_eq_zero]

theorem GenSettings.pulse_video (video : g.kind = .video) (len : Nat) : g.pulseNs k len = 2000 := by
  simp only [GenSettings.pulseNs, video]

theorem GenSettings.pulse_audio (audio : g.kind = .audio) (len : Nat) :
    g.pulseNs k len = if g.marker k then len / 4 else len / 2 := by
  simp only [GenSettings.pulseNs, audio]

end

/-! ### Arming (R135) -/

/-- The first boundary chosen on arming lies more than 1 ms ahead, and no earlier one does. -/
theorem GenSettings.firstBoundary_spec (g : GenSettings) (rate : Int) (now a : Nat) : let nb := g.firstBoundary rate now a
    nb.time = g.boundaryTime nb.number ∧ a + 1000000 < nb.time ∧
      (∀ k, k < nb.number → g.boundaryTime k ≤ a + 1000000) ∧
      nb.instant = now + 2 * (Int.tdiv (((nb.time : Int) - a) * 1000000000) (1000000000 + rate)).toNat := by
  obtain ⟨ahead, before⟩ := g.firstAtOrAfter_spec (a + 1000001)
  refine ⟨rfl, ?_, fun k earlier => ?_, rfl⟩
  · change a + 1000000 < g.boundaryTime (g.firstAtOrAfter (a + 1000001))
    omega
  · have := before k earlier
    omega

section
variable (s : State) (i j : Fin 4)

theorem State.armOne_frame : s.armOne i = s.setGens (s.armOne i).gens := by
  unfold State.armOne
  split
  next => rfl
  next => split <;> rfl

/-- What arming makes of a generator at reading `a` (R135). -/
def State.armed (s : State) (a : Nat) (i : Fin 4) : Generator :=
  if (s.config.gens[i]).enable && (s.gens[i]).state == .off then
    (s.gens[i]).arm s.config.gens[i] s.discipline.rate s.synthTime a
  else s.gens[i]

theorem State.armOne_get {a : Nat} (reading : s.reading = some a) :
    (s.armOne i).gens[j] = if i = j then s.armed a i else s.gens[j] := by
  unfold State.armOne State.armed
  simp only [reading]
  split
  · exact put_get ..
  · split
    next same => exact congrArg (fun k => s.gens[k]) same.symm
    next => rfl

theorem State.foldl_armOne_get {a : Nat} (reading : s.reading = some a) {l : List (Fin 4)} (nodup : l.Nodup) :
    (l.foldl (fun t i => t.armOne i) s).gens[j] = if j ∈ l then s.armed a j else s.gens[j] := by
  induction l generalizing s with
  | nil => simp
  | cons i l ih =>
    obtain ⟨fresh, nodup⟩ := List.nodup_cons.mp nodup
    have frame := s.armOne_frame i
    have reading' : (s.armOne i).reading = some a := by rw [frame]; exact reading
    rw [List.foldl_cons, ih _ reading' nodup]
    by_cases later : j ∈ l
    · have other : i ≠ j := fun same => fresh (same ▸ later)
      have kept : (s.armOne i).gens[j] = s.gens[j] := by rw [s.armOne_get i j reading, if_neg other]
      rw [if_pos later, if_pos (List.mem_cons_of_mem i later), State.armed, State.armed, kept, frame]
      rfl
    · rw [if_neg later, s.armOne_get i j reading]
      by_cases same : i = j
      · rw [if_pos same, if_pos (by rw [same]; exact List.mem_cons_self), same]
      · rw [if_neg same, if_neg (by simp [later, Ne.symm same])]

theorem State.armAll_get {a : Nat} (reading : s.reading = some a) : s.armAll.gens[j] = s.armed a j :=
  (s.foldl_armOne_get j reading (List.nodup_finRange 4)).trans (if_pos (List.mem_finRange j))

theorem State.enterAgreed_gen {a : Nat} (reading : s.reading = some a) (c : Cause) :
    (s.enterAgreed c).gens[j] = s.armed a j := by
  obtain ⟨t, ht⟩ : ∃ t, t = ((s.move .agreed c).clearCounts).setDiscipline { (s.move .agreed c).clearCounts.discipline with
      holdoverValue := (s.move .agreed c).clearCounts.discipline.rate, holdoverValid := true } := ⟨_, rfl⟩
  have enters : (s.enterAgreed c).gens = t.armAll.gens := by rw [State.enterAgreed, State.openOccasion_gens, ht]
  have reading' : t.reading = some a := by rw [ht, ← reading]; simp [State.reading, State.clearCounts]
  have same : t.armed a j = s.armed a j := by simp [State.armed, ht, State.clearCounts, State.config]
  rw [← same, ← t.armAll_get j reading', ← enters]

end

/-! ### Runs on entry into STANDBY (R142) -/

/-- The on-withdraw setting, by the state of the generator. -/
theorem Generator.withdraw_spec (g : Generator) (how : OnWithdraw) :
    (how = .hold ∨ g.state = .off ∨ g.state = .stopping → g.withdraw how = g) ∧
    (how = .stop → g.state = .armed → g.withdraw how = { g with state := .off, next := none, pinHighUntil := none }) ∧
    (how = .stop → g.state = .running → g.withdraw how = { g with state := .stopping }) := by
  refine ⟨fun stays => ?_, fun stops armed => ?_, fun stops running => ?_⟩
  · cases how with
    | hold => rfl
    | stop =>
      rcases stays with hold | off | stopping
      · cases hold
      · simp only [Generator.withdraw, off]
      · simp only [Generator.withdraw, stopping]
  · simp only [Generator.withdraw, stops, armed]
    rfl
  · simp only [Generator.withdraw, stops, running]

/-- An entry that abandons no relock leaves the generators as the on-withdraw setting has them. -/
theorem State.enterStandby_gen {s : State} {c : Cause} (kept : ¬(s.abandonsLock c = true ∧ s.source.synth = .relocking))
    (i : Fin 4) : (s.enterStandby c).gens[i] = (s.gens[i]).withdraw (s.config.gens[i]).onWithdraw := by
  have withdrawn : (s.enterStandby c).gens = (s.move .standby c).withdrawGens.gens := by
    rw [State.enterStandby_eq, State.standbyRule_gens]
    cases abandons : s.abandonsLock c with
    | false => rw [State.beforeStandbyRule_of_keeps abandons]
    | true =>
      have other : (s.move .standby c).withdrawGens.source.synth ≠ .relocking := by
        simpa using fun relocking => kept ⟨abandons, relocking⟩
      rw [State.beforeStandbyRule_of_abandons abandons, State.abandonLock_of_other _ other, State.stopSynth_gens]
  have moved : (s.move .standby c).config = s.config := by simp [State.config]
  rw [withdrawn, State.withdrawGens_get, State.move_gens, moved]

/-- Where an entry into STANDBY abandons a lock (R24, R38, R124). -/
theorem State.abandonsLock_cases {s : State} {c : Cause} (abandons : s.abandonsLock c = true) :
    s.station.state = .starting ∨ (c = .withdrawn ∧ (s.station.state = .listen ∨ s.station.state = .stalled)) := by
  unfold State.abandonsLock at abandons
  split at abandons
  next starting => exact .inl starting
  next listen => exact .inr ⟨beq_iff_eq.mp (Bool.and_eq_true_iff.mp abandons).1, .inl listen⟩
  next stalled => exact .inr ⟨beq_iff_eq.mp (Bool.and_eq_true_iff.mp abandons).1, .inr stalled⟩
  all_goals cases abandons

/-- Settles O48. -/
theorem boundaryTimesAndBounds : Obligations.BoundaryTimesAndBounds := by
  refine ⟨fun g k => rfl, fun g x k => g.lt_firstAtOrAfter_iff x k, fun rate paired _ => ?length, fun rate paired m _ => ?least,
    fun r => ?bounds, fun g k len => ?pulse, fun s cause a i => ?arms, fun s cause i => ?stops⟩
  case length => exact ⟨sequenceLength_pos rate paired, (sequenceLength_dvd_iff rate paired _).mp dvd_rfl⟩
  case least => exact fun some_ spans => Nat.le_of_dvd some_ ((sequenceLength_dvd_iff rate paired m).mpr spans)
  case bounds => cases r <;> decide
  case pulse =>
    refine ⟨fun video => ⟨GenSettings.marker_video video, GenSettings.pulse_video video len⟩, fun paired audio pairs =>
      ⟨fun divides => ?_, fun between => ?_⟩⟩
    · have marker : g.marker k = true := (GenSettings.marker_audio audio pairs).mpr divides
      exact ⟨marker, by rw [GenSettings.pulse_audio audio, if_pos marker]⟩
    · have marker : ¬g.marker k = true := between ∘ (GenSettings.marker_audio audio pairs).mp
      exact ⟨Bool.eq_false_iff.mpr marker, by rw [GenSettings.pulse_audio audio, if_neg marker]⟩
  case arms =>
    intro t set g reading
    have armed : t.gens[i] = s.armed a i := s.enterAgreed_gen i reading cause
    refine ⟨fun enabled off => ?_, fun other => ?_⟩
    · refine ⟨set.firstBoundary s.discipline.rate s.synthTime a, ?_, set.firstBoundary_spec _ _ _⟩
      rw [armed, State.armed, if_pos (by rw [enabled, off]; rfl)]
      rfl
    · rw [armed, State.armed, if_neg ?_]
      rcases other with disabled | running
      · rw [disabled]; exact Bool.false_ne_true
      · exact fun h => running (beq_iff_eq.mp (Bool.and_eq_true_iff.mp h).2)
  case stops =>
    intro t how g kept
    have keeps : ¬(s.abandonsLock cause = true ∧ s.source.synth = .relocking) := by
      rintro ⟨abandons, relocking⟩
      obtain ⟨started, other⟩ := kept.resolve_left (not_not.mpr relocking)
      rcases State.abandonsLock_cases abandons with starting | ⟨withdrawn, listen | stalled⟩
      · exact started starting
      · exact (other.resolve_left (not_not.mpr withdrawn)).1 listen
      · exact (other.resolve_left (not_not.mpr withdrawn)).2 stalled
    have withdrawn : t.gens[i] = g.withdraw how := State.enterStandby_gen keeps i
    rw [withdrawn]
    exact g.withdraw_spec how

end Sys2Proof.Machine
end

section
/-! PROOFS. A round end without an observation (R3, R51, R54, R66; log 7): what it keeps, in every state that transmits. -/

namespace Sys2Proof.Machine

/-! ### What stays -/

/-- The clock, the Peer Table and the record of the round ends are the same. -/
structure State.Quiet (s t : State) : Prop where
  clock : t.discipline.clock = s.discipline.clock
  peers : t.peers = s.peers
  followed : t.link.followed = s.link.followed
  lastRoundEnd : t.link.lastRoundEnd = s.link.lastRoundEnd
  arrivals : t.link.arrivals = s.link.arrivals
  owed : t.link.owedRoundEnd = s.link.owedRoundEnd

section
variable {s t u : State}

theorem State.Quiet.refl (s : State) : s.Quiet s := ⟨rfl, rfl, rfl, rfl, rfl, rfl⟩

theorem State.Quiet.trans (h : s.Quiet t) (k : t.Quiet u) : s.Quiet u where
  clock := k.clock.trans h.clock
  peers := k.peers.trans h.peers
  followed := k.followed.trans h.followed
  lastRoundEnd := k.lastRoundEnd.trans h.lastRoundEnd
  arrivals := k.arrivals.trans h.arrivals
  owed := k.owed.trans h.owed

theorem State.Quiet.of_link (link : t.link = s.link) (clock : t.discipline.clock = s.discipline.clock)
    (peers : t.peers = s.peers) : s.Quiet t :=
  ⟨clock, peers, by rw [link], by rw [link], by rw [link], by rw [link]⟩

end

section
variable (s : State)

theorem State.quiet_move (st : StationState) (c : Cause) : s.Quiet (s.move st c) where
  clock := by rw [State.move_discipline]
  peers := by rw [State.move_peers]
  followed := by rw [State.move_link]
  lastRoundEnd := by rw [State.move_link]
  arrivals := by rw [State.move_link]
  owed := by rw [State.move_link]

theorem State.quiet_openOccasion : s.Quiet s.openOccasion where
  clock := by rw [State.openOccasion_discipline]
  peers := by rw [State.openOccasion_peers]
  followed := by rw [State.openOccasion_link]
  lastRoundEnd := by rw [State.openOccasion_link]
  arrivals := by rw [State.openOccasion_link]
  owed := by rw [State.openOccasion_link]

theorem State.quiet_enterAgreed (c : Cause) : s.Quiet (s.enterAgreed c) :=
  ((s.quiet_move .agreed c).trans (.of_link (by simp [State.clearCounts]) (by simp [State.clearCounts])
    (by simp [State.clearCounts]))).trans (State.quiet_openOccasion _)

theorem State.quiet_enterIsolated (c : Cause) : s.Quiet (s.enterIsolated c) :=
  (s.quiet_move .isolated c).trans (State.quiet_openOccasion _)

/-- From a state that closes rounds LISTEN goes on with the round followed (R3). -/
theorem State.quiet_enterListen (c : Cause) (closes : s.station.state.closesRounds = true) : s.Quiet (s.enterListen c) := by
  have moved := s.quiet_move .listen c
  have link : (s.enterListen c).link = { (s.move .listen c).link with listenRound := (s.enterListen c).link.listenRound } := by
    simp [State.enterListen, closes]
  exact {
    clock := by rw [State.enterListen_discipline]
    peers := by rw [State.enterListen_peers]
    followed := by rw [link]; exact moved.followed
    lastRoundEnd := by rw [link]; exact moved.lastRoundEnd
    arrivals := by rw [link]; exact moved.arrivals
    owed := by rw [link]; exact moved.owed }

theorem State.quiet_steered : s.Quiet s.steered := by
  obtain ⟨-, discipline, -, peers, link, -⟩ := s.steered_frame
  exact .of_link link (by rw [discipline]) peers

theorem State.quiet_countShort : s.Quiet s.countShort := .of_link rfl rfl rfl

theorem State.quiet_recordedWith (n : Nat) : s.Quiet (s.recordedWith n) := .of_link rfl rfl rfl

theorem State.quiet_setAgreement (x : Agreement) : s.Quiet (s.setAgreement x) := .of_link rfl rfl rfl

theorem State.quiet_setDiscipline (x : Discipline) (clock : x.clock = s.discipline.clock) : s.Quiet (s.setDiscipline x) :=
  .of_link rfl clock rfl

theorem State.quiet_examineLabels : s.Quiet (s.examineLabels s.contributors) :=
  .of_link (by simp) (by simp) (by simp)

theorem State.quiet_regained : s.Quiet (s.regained s 0) := by
  have enters : s.Quiet ((s.steered.recordedWith 0).enterAgreed .regained) :=
    (s.quiet_steered.trans (State.quiet_recordedWith _ 0)).trans (State.quiet_enterAgreed _ .regained)
  rw [State.regained]
  generalize (s.steered.recordedWith 0).enterAgreed .regained = r at enters ⊢
  exact (enters.trans (r.quiet_setDiscipline _ (by rfl))).trans (State.quiet_setAgreement _ _)

theorem State.regained_state : (s.regained s 0).station.state = .agreed := by
  rw [State.regained, State.setAgreement_station, State.setDiscipline_station, State.enterAgreed_station, State.move_state]

theorem State.quiet_recordEstimate : s.Quiet s.recordEstimate := .of_link rfl rfl rfl

theorem State.quiet_steerOnly (x : Int) : s.Quiet (s.steerOnly x) :=
  .of_link (by simp) State.steerOnly_keeps.1 (by simp)

/-- The rules take an estimate of 0 without a step. -/
theorem State.quiet_applyRules (steer : Int) (later : s.beforeJoiningStep = false) : s.Quiet (s.applyRules 0 false steer) := by
  obtain ⟨peers, link, -, clock, -⟩ := State.applyRules_keeps (e := 0) (steer := steer) (marked := false) later
    (.inr (Nat.zero_le _))
  exact .of_link link clock peers

end

/-! ### The Station Controller at the close (R30, R35) -/

theorem State.quiet_setStation (s : State) (x : Station) : s.Quiet (s.setStation x) := .of_link rfl rfl rfl

theorem State.quiet_setStation_enterListen (s : State) (x : Station) (state : x.state.closesRounds = true) (c : Cause) :
    s.Quiet ((s.setStation x).enterListen c) := (s.quiet_setStation x).trans (State.quiet_enterListen _ c state)

theorem State.quiet_countFounding {s : State} (closes : s.station.state.closesRounds = true) : s.Quiet s.countFounding := by
  rcases le_or_gt s.config.quorum s.foundingCount with enough | few
  · rw [State.countFounding_founded enough]
    exact s.quiet_enterAgreed _
  rcases lt_or_ge (s.station.foundingTimer + 1) 64 with early | late
  · rw [State.countFounding_waits few early]
    exact s.quiet_setStation _
  · rw [State.countFounding_over few late]
    refine s.quiet_setStation_enterListen _ ?_ _
    exact closes

theorem State.quiet_countSilence {s : State} (closes : s.station.state.closesRounds = true) : s.Quiet s.countSilence := by
  by_cases silent : s.silent = true
  · rcases lt_or_ge (s.station.silenceCount + 1) 16 with early | late
    · rw [State.countSilence_stays early, if_pos silent]
      exact s.quiet_setStation _
    · rw [State.countSilence_over silent late]
      refine s.quiet_setStation_enterListen _ ?_ _
      exact closes
  · rw [State.countSilence_heard silent]
    exact s.quiet_setStation _

theorem State.quiet_controlClose {s : State} (transmits : s.station.state.transmits = true) : s.Quiet s.controlClose := by
  have closes : s.station.state.closesRounds = true := by
    cases state : s.station.state <;> simp_all [StationState.transmits, StationState.closesRounds]
  unfold State.controlClose
  split
  case h_1 listen => rw [listen] at transmits; cases transmits
  case h_2 => exact State.quiet_countFounding closes
  case h_3 => exact State.quiet_countSilence closes
  all_goals exact .refl s

/-! ### The agreement point without a contributor (R66) -/

/-- No entry contributes and none is of another group. -/
structure State.Alone (s : State) : Prop where
  contributors : s.contributors = []
  otherGroup : s.otherGroup = []

section
variable {s : State} (h : s.Alone)
include h

theorem State.Alone.estimate : s.estimate = 0 := by
  have none : s.deviationList = [0] := by rw [State.deviationList, h.contributors]; rfl
  rw [State.estimate, none]
  decide

theorem State.Alone.minority : s.minority = false := by
  simp [State.minority, State.mergeApplies, h.otherGroup]

theorem State.Alone.quiet_agreementPoint : s.Quiet s.agreementPoint := by
  obtain ⟨-, -, estimate, quorum, minority, -⟩ := s.steered_reads
  cases state : s.station.state with
  | standby | starting | listen | founding | stalled =>
    have same : s.agreementPoint = s := by simp only [State.agreementPoint, state]
    rw [same]
    exact .refl s
  | joining =>
    rw [State.agreementPoint_joining_short state h.contributors]
    exact .of_link rfl rfl rfl
  | withdrawing =>
    rw [State.agreementPoint_withdrawing state]
    split
    · exact s.quiet_recordEstimate
    · exact s.quiet_countShort
  | agreed =>
    have later (n : Nat) : (s.steered.recordedWith n).beforeJoiningStep = false := by
      obtain ⟨station, -⟩ := s.steered_recordedWith_frame n
      refine State.beforeJoiningStep_eq_false fun k => ?_
      rw [station, state] at k
      exact StationState.noConfusion k.1
    rw [State.agreementPoint_agreed s state]
    refine s.quiet_steered.trans ?_
    cases reached : s.quorum with
    | true =>
      rw [State.pointAgreed_majority (quorum.trans reached) (minority.trans h.minority), estimate, h.estimate,
        State.takeAgreed_within (Nat.zero_le _)]
      exact (s.steered.quiet_recordedWith 0).trans (State.quiet_applyRules _ _ (later 0))
    | false =>
      rw [State.pointAgreed_short (quorum.trans reached)]
      have short (x : Int) := (s.steered.quiet_countShort).trans (State.quiet_steerOnly _ x)
      rcases lt_or_ge s.steered.agreement.shortRounds 7 with early | late
      · rw [State.shortAgreed_few early]
        exact short _
      · rw [State.shortAgreed_eighth late]
        exact (short _).trans (State.quiet_enterIsolated _ _)
  | isolated =>
    cases reached : s.quorum with
    | true =>
      have later : (s.regained s 0).beforeJoiningStep = false := State.beforeJoiningStep_eq_false fun k => by
        rw [State.regained_state] at k
        exact StationState.noConfusion k.1
      rw [State.agreementPoint_isolated_quorum state reached, State.takeAgreed_regained rfl, h.estimate]
      exact s.quiet_regained.trans (State.quiet_applyRules _ _ later)
    | false =>
      rw [State.agreementPoint_isolated_short state reached]
      exact s.quiet_examineLabels.trans (State.quiet_countShort _)

end

/-! ### The close of an unheard table (R54, R55) -/

/-- An entry without an observation is of no other group after the close (R55, R76). -/
theorem PeerEntry.Unheard.strays {p : PeerEntry} (h : p.Unheard) (admission : Nat) : (p.close admission).strays = false := by
  refine Bool.eq_false_iff.mpr fun k => ?_
  obtain ⟨excluded, -, wild, -⟩ := PeerEntry.strays_iff.mp k
  by_cases own : p.state = .self
  · rw [PeerEntry.close_of_self own, own] at excluded
    cases excluded
  have closed : (p.close admission).resultObservation = p.closed := by rw [PeerEntry.close_of_other own]; rfl
  rw [closed] at wild
  unfold PeerEntry.closed at wild
  split at wild
  · cases wild
  · exact h.2 wild

theorem State.alone_of_unheard {s t : State} (unheard : s.peers.Unheard)
    (closed : ∀ i : Fin 32, t.peers.entries[i] = (s.peers.entries[i]).close s.config.admission) : t.Alone where
  contributors := State.contributors_eq_nil fun i => by
    rw [closed]
    exact (unheard i).contributes _
  otherGroup := List.eq_nil_iff_forall_not_mem.mpr fun i mem => by
    rw [State.mem_otherGroup, closed, (unheard i).strays] at mem
    exact Bool.false_ne_true mem

/-- The round end of a table without an observation: signalled, closed, and quiet from there. -/
theorem State.passRound_unheard {s : State} (index : Option Nat) (transmits : s.station.state.transmits = true)
    (unheard : s.peers.Unheard) : ((s.signal index).closeTable).Quiet (s.passRound index) := by
  have control : ((s.signal index).closeTable).Quiet (s.closeRound index) :=
    State.quiet_controlClose (by simpa using transmits)
  have alone : (s.closeRound index).Alone := State.alone_of_unheard unheard fun i => by
    rw [control.peers, State.closeTable_entry, State.signal_peers, State.signal_config]
  exact control.trans alone.quiet_agreementPoint

end Sys2Proof.Machine
end

section
/-! PROOFS. A step of the agreed clock reaches every block (R2, R3, R15, R16, R51, R87, R107, R114, R138; log 7, 11, 41, 54). -/

namespace Sys2Proof.Machine

/-! ### The step before the label change and the occasion -/

/-- The station with the clock, the Link Unit, the Peer Table, the anchor offset and the generators stepped: what is left of
a step is the label change that has become due and the occasion to build. -/
def State.stepped (s : State) (amount : Int) (c : Nat) : State :=
  let c' := clampUnits (c + amount * unitsPerNs)
  ({ s with
    discipline := { s.discipline with clock := some c', slew := none }
    link := s.link.onStep s.station.state.closesRounds s.synthTime (c / unitsPerNs) (c' / unitsPerNs) amount
    peers := s.peers.onStep
    anchor := s.anchor.onStep amount }).stepGens (c' / unitsPerNs)

section
variable {s : State} {amount : Int} {c : Nat} (clock : s.discipline.clock = some c) (nonzero : amount ≠ 0)

theorem State.stepped_notices : (s.stepped amount c).notices = s.notices := rfl
theorem State.stepped_anchor : (s.stepped amount c).anchor = s.anchor.onStep amount := rfl

theorem State.stepped_reading :
    (s.stepped amount c).reading = some (clampUnits (c + amount * 1000000000) / 1000000000) := rfl

section
include clock nonzero

theorem State.stepClock_stepped : s.stepClock amount = (s.stepped amount c).applyDue.openOccasion := by
  simp only [State.stepClock, clock, if_neg nonzero, State.stepped]

theorem State.stepClock_reading :
    (s.stepClock amount).reading = some (clampUnits (c + amount * 1000000000) / 1000000000) := by
  rw [State.reading, State.stepClock_discipline amount clock, if_neg nonzero]
  rfl

theorem State.stepClock_peers : (s.stepClock amount).peers = s.peers.onStep := by
  rw [State.stepClock_stepped clock nonzero, State.openOccasion_peers, State.applyDue_peers]
  rfl

theorem State.stepClock_gens : (s.stepClock amount).gens = (s.stepped amount c).gens := by
  rw [State.stepClock_stepped clock nonzero, State.openOccasion_gens, State.applyDue_gens]

theorem State.stepClock_anchor : (s.stepClock amount).anchor = (s.stepped amount c).applyDue.anchor := by
  rw [State.stepClock_stepped clock nonzero, State.openOccasion_anchor]

end

/-! ### The Peer Table (R51) -/

theorem PeerTable.onStep_entry (t : PeerTable) (i : Fin 32) : t.onStep.entries[i] = (t.entries[i]).onStep := tabulate_get ..

/-- An entry loses its lag and an observation of its own; all else stays. -/
theorem PeerEntry.onStep_spec (p : PeerEntry) : p.onStep.rawLag = none ∧ p.onStep.lagAge = .stale ∧ p.onStep.state = p.state ∧
    p.onStep.tag = p.tag ∧ p.onStep.delay = p.delay ∧ p.onStep.resultObservation = p.resultObservation ∧
    p.onStep.resultDeviation = p.resultDeviation ∧
    (p.observation = .good ∨ p.observation = .wild → p.onStep.observation = .none ∧ p.onStep.deviation = none) ∧
    (p.observation ≠ .good → p.observation ≠ .wild → p.onStep.observation = p.observation) := by
  by_cases heard : p.observation = .good ∨ p.observation = .wild
  · have drops : p.onStep = { p with rawLag := none, lagAge := .stale, observation := .none, deviation := none } := if_pos heard
    rw [drops]
    exact ⟨rfl, rfl, rfl, rfl, rfl, rfl, rfl, fun _ => ⟨rfl, rfl⟩, fun good wild => absurd heard (not_or.mpr ⟨good, wild⟩)⟩
  · have keeps : p.onStep = { p with rawLag := none, lagAge := .stale } := if_neg heard
    rw [keeps]
    exact ⟨rfl, rfl, rfl, rfl, rfl, rfl, rfl, fun k => absurd k heard, fun _ _ => rfl⟩

/-! ### The anchor and the label change (R107, R114) -/

theorem State.applyDue_of_none (h : s.anchor.change = none) : s.applyDue = s := by simp only [State.applyDue, h]

theorem State.applyDue_anchor_keeps (s : State) : s.applyDue.anchor.valid = s.anchor.valid ∧
    s.applyDue.anchor.streak = s.anchor.streak ∧ s.applyDue.anchor.silence = s.anchor.silence ∧
    s.applyDue.anchor.label = s.anchor.label := by
  unfold State.applyDue
  split
  · split
    · exact ⟨rfl, rfl, rfl, rfl⟩
    · exact ⟨rfl, rfl, rfl, rfl⟩
  · exact ⟨rfl, rfl, rfl, rfl⟩

section
variable {x : LabelChange}

/-- A change whose instant the reading has reached is applied, and LABEL_APPLIED raised. -/
theorem State.applyDue_reached {a : Nat} (change : s.anchor.change = some x) (reading : s.reading = some a)
    (reached : x.second * 1000000000 ≤ a) : s.applyDue.anchor.labelOffset = x.offset ∧ s.applyDue.anchor.change = none ∧
      Reports s s.applyDue (.labelApplied x.offset x.second) := by
  rw [State.applyDue_of_change change reading, if_pos reached]
  exact ⟨rfl, rfl, (Reports.raise _ _).before rfl⟩

include clock nonzero

theorem State.stepClock_applies (change : s.anchor.change = some x)
    (reached : x.second * 1000000000 ≤ clampUnits (c + amount * 1000000000) / 1000000000) :
    (s.stepClock amount).anchor.labelOffset = x.offset ∧ (s.stepClock amount).anchor.change = none ∧
      Reports s (s.stepClock amount) (.labelApplied x.offset x.second) := by
  obtain ⟨offset, applied, reports⟩ :=
    State.applyDue_reached (s := s.stepped amount c) (x := x) change State.stepped_reading reached
  rw [State.stepClock_anchor clock nonzero]
  refine ⟨offset, applied, ?_⟩
  rw [State.stepClock_stepped clock nonzero]
  rw [Reports, State.openOccasion_notices]
  exact reports

theorem State.stepClock_awaits (change : s.anchor.change = some x)
    (early : clampUnits (c + amount * 1000000000) / 1000000000 < x.second * 1000000000) :
    (s.stepClock amount).anchor.labelOffset = s.anchor.labelOffset ∧ (s.stepClock amount).anchor.change = some x := by
  have waits : (s.stepped amount c).applyDue = s.stepped amount c :=
    (State.applyDue_of_change (s := s.stepped amount c) change State.stepped_reading).trans (if_neg early.not_ge)
  rw [State.stepClock_anchor clock nonzero, waits]
  exact ⟨rfl, change⟩

end

/-! ### The occasion to build (R15; log 41) -/

/-- After a step the occasion to build is open exactly where the reading lies in the span before the frame start. -/
theorem State.openOccasion_open_iff {a : Nat} (reading : s.reading = some a) (closed : s.link.buildOpen = false) :
    s.openOccasion.link.buildOpen = true ↔ s.station.state.transmits = true ∧ s.source.coasting = false ∧
      inBuildSpan s.config.slot a = true := by
  simp only [State.openOccasion, reading]
  split
  next opens =>
    obtain ⟨⟨transmits, running⟩, span⟩ := (Bool.and_eq_true_iff.mp opens).imp_left Bool.and_eq_true_iff.mp
    exact iff_of_true rfl ⟨transmits, (Bool.not_eq_true' _).mp running, span⟩
  next shut =>
    refine iff_of_false (by rw [closed]; exact Bool.false_ne_true) fun ⟨transmits, running, span⟩ => shut ?_
    rw [transmits, running, span]
    rfl

/-! ### The generators (R138) -/

theorem State.stepped_gen (i : Fin 4) : (s.stepped amount c).gens[i] =
    (s.gens[i]).onStep s.discipline.rate s.synthTime (clampUnits (c + amount * 1000000000) / 1000000000) := tabulate_get ..

theorem Generator.onStep_running {g : Generator} (running : g.state = .running) (rate : Int) (now a : Nat) :
    g.onStep rate now a = { g with rephasePending := true } := by
  simp only [Generator.onStep, running]

theorem Generator.onStep_ended {g : Generator} (ended : g.state = .off ∨ g.state = .stopping) (rate : Int) (now a : Nat) :
    g.onStep rate now a = g := by
  rcases ended with h | h <;> simp only [Generator.onStep, h]

theorem Generator.onStep_armed {g : Generator} {set : GenSettings} (armed : g.state = .armed) (run : g.run = some set)
    (rate : Int) (now a : Nat) :
    g.onStep rate now a = { g with next := some (set.firstBoundary rate now a), rephasePending := false } := by
  simp only [Generator.onStep, armed, run]

/-! ### The round followed and the round end owed (R3; log 7) -/

section
variable {l : Link} {closes : Bool} {now a a' : Nat}

theorem Link.onStep_followed :
    (a / 8000000 < a' / 8000000 → (l.onStep closes now a a' amount).followed = some (a' / 8000000)) ∧
    (a' / 8000000 ≤ a / 8000000 → (l.onStep closes now a a' amount).followed = l.followed.map (min (a' / 8000000))) :=
  ⟨fun forward => if_pos (decide_eq_true forward), fun back => if_neg fun k => back.not_gt (of_decide_eq_true k)⟩

theorem Link.onStep_owed : (l.onStep closes now a a' amount).owedRoundEnd =
    if a / 8000000 < a' / 8000000 ∧ closes = true ∧ ∀ m, l.lastRoundEnd = some m → m + 1 < a' / 8000000 then some (a / 8000000)
    else l.owedRoundEnd := by
  have length (x : Nat) : roundOf x = x / 8000000 := rfl
  simp only [Link.onStep, length, Bool.and_eq_true, decide_eq_true_eq, Link.startsLater_iff, and_assoc]

theorem Link.onStep_built : (∀ b, l.built = some b → b.begun = true → (l.onStep closes now a a' amount).built = some b) ∧
    (∀ b, l.built = some b → b.begun = false → a' < a ∨ frameStartOf b.round b.beacon.slot ≤ a' →
      (l.onStep closes now a a' amount).built = none) := by
  refine ⟨fun b built begun => ?_, fun b built begun dropped => ?_⟩
  · simp [Link.onStep, Link.builtAfterStep, built, begun]
  · simp [Link.onStep, Link.builtAfterStep, built, begun, dropped]

end

/-- The round end owed after a step, once taken, leaves none owed and none due. -/
theorem State.settleOwed_unheard {n a : Nat} (owed : s.link.owedRoundEnd = some n) (transmits : s.station.state.transmits = true)
    (unheard : s.peers.Unheard) (reading : s.reading = some a) :
    (s.settleOwed 2).link.owedRoundEnd = none ∧ (s.settleOwed 2).roundEndDue = none ∧
    (s.settleOwed 2).discipline.clock = s.discipline.clock ∧
    (s.settleOwed 2).link.lastRoundEnd = some (lastAfter s.link.lastRoundEnd n) ∧
    (s.settleOwed 2).link.arrivals = Vector.replicate 32 false ∧
    ∀ i : Fin 32, (s.settleOwed 2).peers.entries[i] = (s.peers.entries[i]).close s.config.admission := by
  let t := s.setLink { s.link with owedRoundEnd := none }
  have quiet : ((t.signal (some n)).closeTable).Quiet (t.passRound (some n)) := State.passRound_unheard _ transmits unheard
  have link : ((t.signal (some n)).closeTable).link = (t.signal (some n)).link := State.closeTable_link _
  have taken : (t.passRound (some n)).link.owedRoundEnd = none := by rw [quiet.owed, link, State.signal_owed]; rfl
  have whole : s.settleOwed 2 = t.passRound (some n) := by
    have once : s.settleOwed 2 = (t.passRound (some n)).settleOwed 1 := by simp only [State.settleOwed, owed, t]
    exact once.trans (State.settleOwed_none taken)
  have clock : (t.passRound (some n)).discipline.clock = s.discipline.clock := by
    rw [quiet.clock, State.closeTable_discipline, State.signal_discipline]
    rfl
  have reading' : (t.passRound (some n)).reading = some a := by rw [State.reading, clock, ← reading, State.reading]
  have followed : (t.passRound (some n)).link.followed = some (roundOf a) := by
    rw [quiet.followed, link]
    change s.round = _
    rw [State.round, reading]
    rfl
  rw [whole]
  refine ⟨taken, State.roundEndDue_of_unentered reading' (.inl ?_), clock, ?_, ?_, fun i => ?_⟩
  · exact Bool.eq_false_iff.mpr fun k => (Link.reaches_iff.mp k _ followed).ne rfl
  · rw [quiet.lastRoundEnd, link]
    rfl
  · rw [quiet.arrivals, link]
    rfl
  · rw [quiet.peers, State.closeTable_entry, State.signal_peers, State.signal_config]
    rfl

theorem lastAfter_eq (held : Option Nat) (n : Nat) : lastAfter held n = max n (held.getD n) := by
  cases held with
  | none => exact (max_self n).symm
  | some m => exact max_comm m n

end

theorem frameStartOf_eq (n : Nat) (slot : Fin 32) : frameStartOf n slot = n * 8000000 + slot.val * 250000 + 20000 - 480 := by
  change n * 8000000 + slot.val * 250000 + 19520 = _
  omega

theorem State.stepClock_buildOpen {s : State} {amount : Int} {c : Nat} (clock : s.discipline.clock = some c)
    (nonzero : amount ≠ 0) : (s.stepClock amount).link.buildOpen = true ↔ s.station.state.transmits = true ∧
      s.source.coasting = false ∧ inBuildSpan s.config.slot (clampUnits (c + amount * 1000000000) / 1000000000) = true := by
  have open_iff := State.openOccasion_open_iff (s := (s.stepped amount c).applyDue)
    (a := clampUnits (c + amount * 1000000000) / 1000000000) (by rw [State.reading, State.applyDue_discipline]; rfl)
    (by rw [State.applyDue_link]; rfl)
  rw [State.applyDue_station, State.applyDue_source, State.config, State.applyDue_port] at open_iff
  rw [State.stepClock_stepped clock nonzero]
  exact open_iff

theorem State.stepClock_gen {s : State} {amount : Int} {c : Nat} (clock : s.discipline.clock = some c) (nonzero : amount ≠ 0)
    (i : Fin 4) : (s.stepClock amount).gens[i] =
      (s.gens[i]).onStep s.discipline.rate s.synthTime (clampUnits (c + amount * 1000000000) / 1000000000) := by
  simp only [State.stepClock_gens clock nonzero]
  exact State.stepped_gen i

/-- Settles O46. -/
theorem stepReachesEveryBlock : Obligations.StepReachesEveryBlock := by
  refine ⟨fun s o => ⟨State.stepNoticed_zero o s, ?_⟩, ?_⟩
  · cases clock : s.discipline.clock with
    | none => exact State.stepClock_of_invalid clock
    | some c => exact State.stepClock_zero clock
  intro s amount c t c' a' clock nonzero
  have link : t.link = _ := State.stepClock_link clock nonzero
  have peers : t.peers = s.peers.onStep := State.stepClock_peers clock nonzero
  have anchor : t.anchor = _ := State.stepClock_anchor clock nonzero
  have reading : t.reading = some a' := State.stepClock_reading clock nonzero
  have discipline : t.discipline = { s.discipline with clock := some c', slew := none } :=
    (State.stepClock_discipline amount clock).trans (by rw [if_neg nonzero])
  have gen (i : Fin 4) : t.gens[i] = (s.gens[i]).onStep s.discipline.rate s.synthTime a' :=
    State.stepClock_gen clock nonzero i
  have entry (i : Fin 32) : t.peers.entries[i] = (s.peers.entries[i]).onStep := by
    simp only [peers]
    exact s.peers.onStep_entry i
  have opens : t.link.buildOpen = true ↔ _ := State.stepClock_buildOpen clock nonzero
  obtain ⟨valid, streak, silence, label⟩ := (s.stepped amount c).applyDue_anchor_keeps
  obtain ⟨judged, kept⟩ := s.link.readBackAfterStep_spec (c / 1000000000) a'
  obtain ⟨begun, dropped⟩ := Link.onStep_built (amount := amount) (l := s.link) (closes := s.station.state.closesRounds)
    (now := s.synthTime) (a := c / 1000000000) (a' := a')
  obtain ⟨ahead, back⟩ := Link.onStep_followed (amount := amount) (l := s.link) (closes := s.station.state.closesRounds)
    (now := s.synthTime) (a := c / 1000000000) (a' := a')
  refine ⟨discipline, by rw [peers]; rfl, fun i => ?entry, State.stepClock_offset clock nonzero, by rw [anchor]; exact valid,
    by rw [anchor]; exact streak, by rw [anchor]; exact silence, by rw [anchor]; exact label,
    fun x => State.stepClock_applies clock nonzero, fun x => State.stepClock_awaits clock nonzero,
    State.stepClock_furthest clock nonzero, by rw [link]; rfl, by rw [link]; rfl, by rw [link]; rfl, by rw [link]; rfl,
    by rw [link]; rfl, fun unjudged apart => by rw [link]; exact judged unjudged apart,
    fun same => by rw [link]; exact kept same, fun b built k => by rw [link]; exact begun b built k,
    fun b built k falls => by rw [link]; exact dropped b built k (.inl falls),
    fun b built k passes => by rw [link]; exact dropped b built k (.inr ((frameStartOf_eq ..).trans_le passes)),
    ?opens, ?rounds, fun i => ?gen,
    by simp [t], by simp [t], by simp [t], by simp [t], by simp [t]⟩
  case entry =>
    simp only [entry]
    exact (s.peers.entries[i]).onStep_spec
  case opens =>
    rw [opens, inBuildSpan_iff]
  case gen =>
    simp only [gen]
    refine ⟨fun running => Generator.onStep_running running .., fun ended => Generator.onStep_ended ended ..,
      fun set armed run => ?_⟩
    rw [Generator.onStep_armed armed run]
    obtain ⟨time, ahead, first, -⟩ := set.firstBoundary_spec s.discipline.rate s.synthTime a'
    exact ⟨_, rfl, armed, time, ahead, first⟩
  case rounds =>
    intro n n' closes later
    have owed : t.link.owedRoundEnd = if n < n' ∧ s.station.state.closesRounds = true ∧ later then some n
        else s.link.owedRoundEnd := by
      rw [link]
      exact Link.onStep_owed (amount := amount) (now := s.synthTime)
    have closing : s.station.state.closesRounds = true ↔ closes := by
      cases state : s.station.state <;> simp [closes, state, StationState.closesRounds, StationState.transmits]
    have last : t.link.lastRoundEnd = s.link.lastRoundEnd := by rw [link]; rfl
    refine ⟨fun forward => by rw [link]; exact ahead forward, fun backward => by rw [link]; exact back backward,
      fun forward closed enters => owed.trans (if_pos ⟨forward, closing.mpr closed, enters⟩),
      fun blocked => owed.trans (if_neg ?stays), last, fun forward transmits enters => ?taken⟩
    case stays =>
      intro ⟨forward, closed, enters⟩
      exact blocked.elim (·.not_gt forward) (·.elim (· (closing.mp closed)) (· enters))
    case taken =>
      have owes : t.link.owedRoundEnd = some n :=
        owed.trans (if_pos ⟨forward, closing.mpr (.inr transmits), enters⟩)
      obtain ⟨settled, done, clock', lastEnd, arrivals, entries⟩ := State.settleOwed_unheard owes
        (by simpa [t] using transmits) (by rw [peers]; exact s.peers.onStep_unheard) reading
      refine ⟨settled, done, by rw [clock', discipline], by rw [lastEnd, lastAfter_eq, last], arrivals, fun i => ?_⟩
      rw [entries i, State.config, State.stepClock_port, State.config]

end Sys2Proof.Machine
end

section
/-! PROOFS. The elapsed time at the clock, the Source Unit and the timing marks (R1, R3, R15, R24, R27, R86, R93, R106, R107,
R117, R118, R122; log 4, 6, 10, 11, 25, 33, 43). -/

namespace Sys2Proof.Machine

section
variable {e : Elapsed} {s : State} {c : Nat}

/-! ### The blocks that count time -/

theorem State.elapse_station : (s.elapse e).station = { s.station with
    seed := s.station.seed.map fun w => { w with elapsedRc := w.elapsedRc + e.rc }
    lockTime := s.station.lockTime.map (· + e.rc) } := by
  simp [State.elapse, State.tickRc]

theorem State.elapse_source : (s.elapse e).source = ((s.tickRc e.rc).tickSources e).source := by
  simp [State.elapse]

theorem State.tickClock_link : (s.tickClock e).link = { s.link with
    buildOpen := (s.tickClock e).link.buildOpen, furthest := (s.tickClock e).link.furthest } := by
  unfold State.tickClock
  split <;> rfl

theorem State.elapse_link : (s.elapse e).link = { s.link with
    listenRound := s.link.listenRound.map (· + s.synthAdvance e), buildOpen := (s.elapse e).link.buildOpen
    furthest := (s.elapse e).link.furthest, trail := s.trailAfter e } := by
  simp only [State.elapse]
  rw [State.tickClock_link]
  simp

theorem State.tickClock_of_invalid (h : s.discipline.clock = none) : s.tickClock e = s := by
  simp only [State.tickClock, h]

theorem State.elapse_of_invalid (h : s.discipline.clock = none) :
    (s.elapse e).anchor = s.anchor ∧ (s.elapse e).discipline = s.discipline := by
  have unset : ((s.tickRc e.rc).tickSources e).discipline.clock = none := by simpa using h
  simp [State.elapse, State.tickClock_of_invalid unset]

/-! ### Synthesizer time (R3, R122; log 25) -/

theorem State.synthAdvance_locked (h : s.source.synth = .locked) : s.synthAdvance e = 2 * e.synth := by
  simp only [State.synthAdvance, h]

theorem State.synthAdvance_relocking (h : s.source.synth = .relocking) : s.synthAdvance e = 125 * e.rc := by
  simp only [State.synthAdvance, h]

theorem State.synthAdvance_stopped (h : s.source.synth = .off ∨ s.source.synth = .locking) :
    ((∃ i : Fin 4, (s.gens[i]).state = .stopping) ∨ s.link.transmitter.isSome = true → s.synthAdvance e = 125 * e.rc) ∧
    (¬((∃ i : Fin 4, (s.gens[i]).state = .stopping) ∨ s.link.transmitter.isSome = true) → s.synthAdvance e = 0) := by
  have ends : (s.gens.toList.any (fun g => g.state == .stopping) || s.link.transmitter.isSome) = true ↔
      (∃ i : Fin 4, (s.gens[i]).state = .stopping) ∨ s.link.transmitter.isSome = true := by
    simp [Vector.any_eq_true, Fin.exists_iff]
  have advance : s.synthAdvance e =
      if (s.gens.toList.any (fun g => g.state == .stopping) || s.link.transmitter.isSome) = true then 125 * e.rc else 0 := by
    rcases h with h | h <;> simp only [State.synthAdvance, h]
  rw [advance, ← ends]
  exact ⟨fun goes => if_pos goes, fun rests => if_neg rests⟩

/-! ### The sources (R117, R118) -/

theorem SourceRecord.tick_eq (r : SourceRecord) (cycles : Nat) :
    r.tick cycles = if r.enabled = true ∧ r.whole = true then { r with count := r.count + cycles } else r := by
  simp only [SourceRecord.tick, Bool.and_eq_true]

theorem State.tickSources_source : ((s.tickRc e.rc).tickSources e).source = { s.source with
    xo := s.source.xo.tick e.xo, ref := s.source.ref.tick e.ref
    lockCount := ((s.tickRc e.rc).tickSources e).source.lockCount
    windowTimer := s.source.windowTimer + e.rc, unitTimer := s.source.unitTimer.map (· + e.rc) } := rfl

theorem State.lockCount_ticks {x : Source} (lock : s.source.lockSource = some x)
    (locks : s.source.synth = .locking ∨ s.source.synth = .relocking) :
    ((s.tickRc e.rc).tickSources e).source.lockCount =
      min 2048 (s.source.lockCount + cyclesOf e x) := by
  rcases locks with h | h <;> simp [State.tickSources, State.tickRc, lock, h]

theorem State.lockCount_rests (rests : s.source.lockSource = none ∨ s.source.synth = .off ∨ s.source.synth = .locked) :
    ((s.tickRc e.rc).tickSources e).source.lockCount = s.source.lockCount := by
  have kept : ((s.tickRc e.rc).tickSources e).source.lockCount = match s.source.lockSource with
    | none => s.source.lockCount
    | some x => match s.source.synth with
      | .locking | .relocking => min lockCycles (s.source.lockCount + cyclesOf e x)
      | .off | .locked => s.source.lockCount := rfl
  rw [kept]
  rcases rests with h | h | h
  · rw [h]
  · rw [h]
    split <;> rfl
  · rw [h]
    split <;> rfl

/-! ### The clock (R86, R93) -/

theorem State.baseAdvance_runs (h : s.source.synth = .locked ∨ s.source.synth = .relocking) : s.baseAdvance e =
    if s.source.synth = .locked then (e.synth * (1000000000 + s.discipline.rate)).toNat else e.rc * 62500000000 := by
  rcases h with h | h <;> simp [State.baseAdvance, h]

/-- The share of a slew never passes what is left of it. -/
theorem Slew.share_between (w : Slew) (c base : Nat) : let left := w.amount * 1000000000 - w.applied
    (0 ≤ left → 0 ≤ w.share c base ∧ w.share c base ≤ left) ∧ (left ≤ 0 → left ≤ w.share c base ∧ w.share c base ≤ 0) := by
  intro left
  have share : w.share c base = if (w.endAt : Int) - c - left ≤ base then left else
      Int.tdiv (left * base) ((w.endAt : Int) - c - left) := rfl
  rw [share]
  split
  · exact ⟨fun pos => ⟨pos, le_rfl⟩, fun neg => ⟨le_rfl, neg⟩⟩
  next room =>
    have shares (x : Int) (pos : 0 ≤ x) : 0 ≤ Int.tdiv (x * base) ((w.endAt : Int) - c - left) ∧
        Int.tdiv (x * base) ((w.endAt : Int) - c - left) ≤ x := by
      rw [Int.tdiv_eq_ediv_of_nonneg (by positivity)]
      refine ⟨Int.ediv_nonneg (by positivity) (by omega), Int.ediv_le_of_le_mul (by omega) ?_⟩
      exact Int.mul_le_mul_of_nonneg_left (by omega) pos
    refine ⟨shares left, fun neg => ?_⟩
    obtain ⟨low, high⟩ := shares (-left) (by omega)
    rw [Int.neg_mul, Int.neg_tdiv] at low high
    omega

theorem windowStarts_lt_iff (slot : Fin 32) (a a' : Nat) : windowStarts slot a < windowStarts slot a' ↔
    ∃ n, a < n * 8000000 + slot.val * 250000 ∧ n * 8000000 + slot.val * 250000 ≤ a' := by
  have := slot.isLt
  change (a + 8000000 - slot.val * 250000) / 8000000 < (a' + 8000000 - slot.val * 250000) / 8000000 ↔ _
  constructor
  · intro later
    exact ⟨(a' + 8000000 - slot.val * 250000) / 8000000 - 1, by omega, by omega⟩
  · rintro ⟨n, after, before⟩
    omega

/-! ### The anchor and the occasion to build (R15, R106, R107; log 11, 41) -/

section
variable (h : s.discipline.clock = some c)
include h

theorem State.elapse_rate : (s.elapse e).discipline.rate = s.discipline.rate := by
  simp [State.elapse, State.tickClock, h]

theorem State.elapse_anchor : (s.elapse e).anchor = { s.anchor with
    offset := (s.elapse e).anchor.offset
    silence := min (3000000000 * 1000000000)
      (s.anchor.silence + (clampUnits (c + s.baseAdvance e + s.partOf e c) - c)) } := by
  simp only [State.elapse, State.tickClock, State.tickSources_discipline, State.tickRc_discipline, h]
  rfl

theorem State.elapse_offset : (s.elapse e).anchor.offset = s.anchor.offset.map (· -
    (s.discipline.slew.map fun w => (w.apply (s.partOf e c)).appliedNs - w.appliedNs).getD 0) := by
  simp only [State.elapse, State.tickClock, State.tickSources_discipline, State.tickRc_discipline, h]
  rfl

theorem State.elapse_furthest : (s.elapse e).link.furthest =
    some (s.link.shows (clampUnits (c + s.baseAdvance e + s.partOf e c) / 1000000000)) := by
  simp only [State.elapse, State.tickClock, State.tickSources_discipline, State.tickRc_discipline, h]
  rfl

theorem State.elapse_buildOpen : let now := clampUnits (c + s.baseAdvance e + s.partOf e c) / 1000000000
    (s.elapse e).link.buildOpen = (s.link.buildOpen ||
      (decide (windowStarts s.config.slot (c / 1000000000) < windowStarts s.config.slot now) && s.station.state.transmits &&
        !s.source.coasting && inBuildSpan s.config.slot now && !s.link.passed (roundOf now) s.config.slot)) := by
  simp only [State.elapse, State.tickClock, State.tickSources_discipline, State.tickRc_discipline, h]
  rfl

end

/- The bound of a comparison stays closed here: a kernel that evaluates it counts it down. -/
theorem getD_map_eq_false_iff {α : Type} (o : Option α) (p : α → Bool) :
    (o.map p).getD false = false ↔ ∀ r, o = some r → p r = false := by
  cases o <;> simp

theorem Link.passed_eq_false_iff (l : Link) (n : Nat) (slot : Fin 32) : l.passed n slot = false ↔
    ∀ r, l.furthest = some r → r < intendedDeparture n slot :=
  (getD_map_eq_false_iff _ _).trans (forall₂_congr fun _ _ => decide_eq_false_iff_not.trans not_le)

/-! ### Timing marks (R1; log 4) -/

/-- The run of the clock is in proportion to synthesizer time while the synthesizer is LOCKED. -/
theorem State.baseAdvance_since {since : Nat} (locked : s.source.synth = .locked) (rate : s.discipline.rate.natAbs ≤ 100000)
    (pos : 0 < since) (within : since ≤ e.synth) :
    s.baseAdvance e * (s.synthTime + 2 * e.synth - 2 * since - s.synthTime) / (2 * e.synth) =
      s.baseAdvance { e with synth := e.synth - since } := by
  obtain ⟨k, pace⟩ := Int.eq_ofNat_of_zero_le (show 0 ≤ 1000000000 + s.discipline.rate by omega)
  have base (x : Elapsed) : s.baseAdvance x = x.synth * k := by
    rw [State.baseAdvance_runs (.inl locked), if_pos locked, pace, ← Nat.cast_mul, Int.toNat_natCast]
  rw [base, base, show s.synthTime + 2 * e.synth - 2 * since - s.synthTime = 2 * (e.synth - since) by omega]
  refine Nat.div_eq_of_eq_mul_left (by omega) ?_
  ring

/-- The agreed reading of the stretch just run, at an instant in it. -/
theorem State.stretch_readingAt {since : Nat} (locked : s.source.synth = .locked) (rate : s.discipline.rate.natAbs ≤ 100000)
    (pos : 0 < since) (within : since ≤ e.synth) : (s.stretch e).readingAt (s.synthTime + 2 * e.synth - 2 * since) =
      (s.elapse { e with synth := e.synth - since }).reading := by
  have base := State.baseAdvance_since locked rate pos within
  have length : (s.stretch e).length = 2 * e.synth := State.synthAdvance_locked locked
  cases clock : s.discipline.clock with
  | none =>
    obtain ⟨-, same⟩ := State.elapse_of_invalid (e := { e with synth := e.synth - since }) clock
    rw [Stretch.readingAt, State.reading, same, clock, show (s.stretch e).clock = none from clock]
    rfl
  | some c =>
    rw [State.reading, State.elapse_clock clock, Stretch.readingAt, length, show (s.stretch e).clock = some c from clock,
      show (s.stretch e).base = s.baseAdvance e from rfl, show (s.stretch e).start = s.synthTime from rfl]
    simp only [base]
    rfl

theorem State.markAt_elapsed {since : Nat} (locked : s.source.synth = .locked) (on : s.link.mode ≠ .off)
    (rate : s.discipline.rate.natAbs ≤ 100000) (pos : 0 < since) (within : since ≤ e.synth) : (s.elapse e).markAt since =
      ⟨s.link.mode, s.source.coasting, (s.elapse { e with synth := e.synth - since }).reading, since⟩ := by
  have advance : s.synthAdvance e = 2 * e.synth := State.synthAdvance_locked locked
  have time : (s.elapse e).synthTime = s.synthTime + 2 * e.synth := by rw [State.elapse_synthTime, advance]
  have trail : ∃ rest, (s.elapse e).link.trail = s.stretch e :: rest := by
    have moves : (s.stretch e).length ≠ 0 := by
      change s.synthAdvance e ≠ 0
      omega
    exact ⟨_, if_neg (not_or.mpr ⟨on, moves⟩)⟩
  obtain ⟨rest, trail⟩ := trail
  have instant : ((s.elapse e).synthTime : Int) - 2 * since = (s.synthTime + 2 * e.synth - 2 * since : Nat) := by omega
  have found : (s.elapse e).link.trail.find?
      (fun r => decide ((r.start : Int) ≤ (s.synthTime + 2 * e.synth - 2 * since : Nat))) = some (s.stretch e) := by
    rw [trail]
    refine List.find?_cons_of_pos (decide_eq_true ?_)
    change (s.synthTime : Int) ≤ _
    omega
  unfold State.markAt
  rw [if_neg pos.ne', instant, found]
  dsimp only
  rw [Int.toNat_natCast, State.stretch_readingAt locked rate pos within]
  rfl

end

/-! ### The obligation -/

theorem State.elapse_slewed {e : Elapsed} {s : State} {c : Nat} {w : Slew} (clock : s.discipline.clock = some c)
    (slew : s.discipline.slew = some w) : let part := w.share c (s.baseAdvance e)
    (s.elapse e).discipline.clock = some (clampUnits (c + s.baseAdvance e + part)) ∧
    (s.elapse e).discipline.slew = some { w with applied := w.applied + part } ∧
    (s.elapse e).anchor.offset = s.anchor.offset.map (· -
      (Int.tdiv (w.applied + part) 1000000000 - Int.tdiv w.applied 1000000000)) := by
  intro part
  have share : s.partOf e c = part := by rw [State.partOf, slew]; rfl
  refine ⟨by rw [State.elapse_clock clock, share], by rw [State.elapse_slew clock, share, slew]; rfl, ?_⟩
  rw [State.elapse_offset clock, slew, share]
  rfl

theorem State.elapse_unslewed {e : Elapsed} {s : State} {c : Nat} (clock : s.discipline.clock = some c)
    (slew : s.discipline.slew = none) : (s.elapse e).discipline.clock = some (clampUnits (c + s.baseAdvance e)) ∧
    (s.elapse e).discipline.slew = none ∧ (s.elapse e).anchor.offset = s.anchor.offset := by
  have share : s.partOf e c = 0 := by rw [State.partOf, slew]; rfl
  refine ⟨by rw [State.elapse_clock clock, share, add_zero], by rw [State.elapse_slew clock, slew]; rfl, ?_⟩
  rw [State.elapse_offset clock, slew]
  simp

/-- An occasion to build opens where the own window starts in the elapsed time (R15). -/
theorem State.elapse_buildOpen_iff {e : Elapsed} {s : State} {c c' : Nat} (clock : s.discipline.clock = some c)
    (runs : (s.elapse e).discipline.clock = some c') : let a := c / 1000000000; let a' := c' / 1000000000
    let start := s.config.slot.val * 250000
    (s.elapse e).link.buildOpen = true ↔ s.link.buildOpen = true ∨
      (s.station.state.transmits = true ∧ s.source.coasting = false ∧ start ≤ a' % 8000000 ∧
        a' % 8000000 < start + 19520 ∧ (∀ r, s.link.furthest = some r → r < a' / 8000000 * 8000000 + start + 20000) ∧
        ∃ n, a < n * 8000000 + start ∧ n * 8000000 + start ≤ a') := by
  intro a a' start
  have same : clampUnits (c + s.baseAdvance e + s.partOf e c) = c' :=
    Option.some.inj ((State.elapse_clock clock).symm.trans runs)
  rw [State.elapse_buildOpen clock, same]
  simp only [Bool.or_eq_true, Bool.and_eq_true, decide_eq_true_eq, Bool.not_eq_true', inBuildSpan_iff,
    Link.passed_eq_false_iff, intendedDeparture_eq, windowStarts_lt_iff, roundOf_eq]
  refine or_congr_right ⟨?_, ?_⟩
  · rintro ⟨⟨⟨⟨starts, transmits⟩, running⟩, from', before⟩, ahead⟩
    exact ⟨transmits, running, from', before, ahead, starts⟩
  · rintro ⟨transmits, running, from', before, ahead, starts⟩
    exact ⟨⟨⟨⟨starts, transmits⟩, running⟩, from', before⟩, ahead⟩

/-- Settles O47. -/
theorem clockRunsOn : Obligations.ClockRunsOn := by
  refine ⟨fun _ => rfl, fun dt s => ?synthesizer, fun dt s => ?always⟩
  case synthesizer =>
    intro t base rate runs
    have advance : s.baseAdvance dt = base := State.baseAdvance_runs runs
    have synthTime : t.synthTime = _ := State.elapse_synthTime dt s
    have station : t.station = _ := State.elapse_station
    refine ⟨?time, ?rate, ?state, State.elapse_notices .., State.elapse_peers .., State.elapse_agreement ..,
      State.elapse_gens .., State.elapse_timecode .., State.elapse_port .., ?seed, ?invalid, ?unslewed, ?slewed, ?opens, ?marks⟩
    case time =>
      rw [synthTime]
      rcases runs with locked | relocking
      · rw [State.synthAdvance_locked locked, if_pos locked]
      · rw [State.synthAdvance_relocking relocking, if_neg (by rw [relocking]; exact SynthState.noConfusion)]
    case rate =>
      cases clock : s.discipline.clock with
      | none => exact congrArg Discipline.rate (State.elapse_of_invalid clock).2
      | some c => exact State.elapse_rate clock
    case state => rw [station]
    case seed =>
      intro w seed
      rw [station]
      exact congrArg (Option.map _) seed
    case invalid =>
      intro clock
      have same : t.discipline = s.discipline := (State.elapse_of_invalid clock).2
      rw [same, clock]
    case unslewed =>
      intro c clock slew
      rw [← advance]
      exact State.elapse_unslewed clock slew
    case slewed =>
      intro c w clock slew left part
      have share : w.share c (s.baseAdvance dt) = part := by
        have shared : w.share c base = if (w.endAt : Int) - c - left ≤ base then left else
          Int.tdiv (left * base) ((w.endAt : Int) - c - left) := rfl
        rw [advance, shared]
        exact if_congr (by omega) rfl rfl
      obtain ⟨runs', applied, offset⟩ := State.elapse_slewed (e := dt) clock slew
      have between := w.share_between c (s.baseAdvance dt)
      rw [share] at runs' applied offset between
      rw [advance] at runs'
      exact ⟨runs', applied, offset, between⟩
    case opens => exact fun c c' clock runs' => State.elapse_buildOpen_iff clock runs'
    case marks => exact fun since locked on pos within => State.markAt_elapsed locked on rate pos within
  case always =>
    intro t counted cycles frameGoesOn
    have source : t.source = _ := State.elapse_source
    refine ⟨⟨s.synthAdvance dt, State.elapse_synthTime dt s, congrArg Link.listenRound State.elapse_link,
      fun locked => State.synthAdvance_locked locked, fun relocking => State.synthAdvance_relocking relocking,
      fun stopped => State.synthAdvance_stopped stopped⟩, State.elapse_station, ?source, ?counts, ?rests,
      fun clock => State.elapse_of_invalid clock, ?running, ?link⟩
    case source => rw [source, State.tickSources_source, SourceRecord.tick_eq, SourceRecord.tick_eq]
    case counts =>
      intro x lock locks
      have ticks : cyclesOf dt x = cycles x := by cases x <;> rfl
      rw [source, State.lockCount_ticks lock locks, ticks]
    case rests =>
      intro rests
      rw [source]
      exact State.lockCount_rests rests
    case running =>
      intro c c' clock runs
      have same : clampUnits (c + s.baseAdvance dt + s.partOf dt c) = c' :=
        Option.some.inj ((State.elapse_clock clock).symm.trans runs)
      have anchor : t.anchor = _ := State.elapse_anchor clock
      have furthest : t.link.furthest = _ := State.elapse_furthest clock
      rw [same] at anchor furthest
      exact ⟨anchor, furthest⟩
    case link =>
      have link : t.link = _ := State.elapse_link
      rw [link]

end Sys2Proof.Machine
end

section
/-! PROOFS. The timecode word of a boundary and how it is sent (R110, R150, R151, R155, R157, R182; log 24). -/

namespace Sys2Proof.Machine

/-! ### The bits of a word (R182) -/

/-- The number whose binary form a word is. -/
def wordValue (t : TimeNumber) (index : Nat) : Nat :=
  t.hours / 10 * 1073741824 + t.hours % 10 * 67108864 + t.minutes / 10 * 8388608 + t.minutes % 10 * 524288 +
    t.seconds / 10 * 65536 + t.seconds % 10 * 4096 + t.frames / 10 * 512 + t.frames % 10 * 32 +
    t.drop.toNat * 16 + t.hold.toNat * 8 + index

theorem timecodeWord_eq (t : TimeNumber) (index : Nat) : timecodeWord t index = BitVec.ofNat 32 (wordValue t index) := by
  have flag (b : Bool) : bit b = b.toNat := by cases b <;> rfl
  simp [timecodeWord, wordValue, flag]

/-- A field of a word is a digit of its value. -/
theorem extractLsb'_ofNat_eq {x k n d : Nat} (small : x < 4294967296) (digit : x / 2 ^ k % 2 ^ n = d % 2 ^ n) :
    (BitVec.ofNat 32 x).extractLsb' k n = BitVec.ofNat n d := by
  refine BitVec.eq_of_toNat_eq ?_
  rw [BitVec.extractLsb'_toNat, BitVec.toNat_ofNat, BitVec.toNat_ofNat, Nat.mod_eq_of_lt small, Nat.shiftRight_eq_div_pow, digit]

theorem getLsbD_ofNat_eq {x k : Nat} {b : Bool} (inside : k < 32) (flag : x / 2 ^ k % 2 = b.toNat) :
    (BitVec.ofNat 32 x).getLsbD k = b := by
  rw [BitVec.getLsbD_ofNat, Nat.testBit_eq_decide_div_mod_eq, flag]
  cases b <;> simp [inside]

/-- The number fits the fields of a word. -/
structure TimeNumber.Fits (t : TimeNumber) : Prop where
  hours : t.hours < 24
  minutes : t.minutes < 60
  seconds : t.seconds < 60
  frames : t.frames < 60

section
variable (t : TimeNumber) (index : Nat)

/-- The hold bit of a word, whatever the number. -/
theorem timecodeWord_hold {index : Nat} (small : index < 8) : (timecodeWord t index).getLsbD 3 = t.hold := by
  rw [timecodeWord_eq]
  refine getLsbD_ofNat_eq (by decide) ?_
  have := t.hold.toNat_le
  unfold wordValue
  omega

theorem timecodeWord_fields {t : TimeNumber} {index : Nat} (fits : t.Fits) (small : index < 8) :
    let w := timecodeWord t index
    w.extractLsb' 30 2 = BitVec.ofNat 2 (t.hours / 10) ∧ w.extractLsb' 26 4 = BitVec.ofNat 4 (t.hours % 10) ∧
    w.extractLsb' 23 3 = BitVec.ofNat 3 (t.minutes / 10) ∧ w.extractLsb' 19 4 = BitVec.ofNat 4 (t.minutes % 10) ∧
    w.extractLsb' 16 3 = BitVec.ofNat 3 (t.seconds / 10) ∧ w.extractLsb' 12 4 = BitVec.ofNat 4 (t.seconds % 10) ∧
    w.extractLsb' 9 3 = BitVec.ofNat 3 (t.frames / 10) ∧ w.extractLsb' 5 4 = BitVec.ofNat 4 (t.frames % 10) ∧
    w.getLsbD 4 = t.drop ∧ w.getLsbD 3 = t.hold ∧ w.extractLsb' 0 3 = BitVec.ofNat 3 index := by
  obtain ⟨hours, minutes, seconds, frames⟩ := fits
  have drop := t.drop.toNat_le
  have hold := t.hold.toNat_le
  have value : wordValue t index < 4294967296 := by unfold wordValue; omega
  intro w
  have word : w = BitVec.ofNat 32 (wordValue t index) := timecodeWord_eq t index
  rw [word]
  refine ⟨extractLsb'_ofNat_eq value ?_, extractLsb'_ofNat_eq value ?_, extractLsb'_ofNat_eq value ?_,
    extractLsb'_ofNat_eq value ?_, extractLsb'_ofNat_eq value ?_, extractLsb'_ofNat_eq value ?_,
    extractLsb'_ofNat_eq value ?_, extractLsb'_ofNat_eq value ?_, getLsbD_ofNat_eq (by decide) ?_,
    getLsbD_ofNat_eq (by decide) ?_, extractLsb'_ofNat_eq value ?_⟩ <;> unfold wordValue
  all_goals
    have h10 : t.hours / 10 < 3 := by omega
    have m10 : t.minutes / 10 < 6 := by omega
    have s10 : t.seconds / 10 < 6 := by omega
    have f10 : t.frames / 10 < 6 := by omega
    have h1 : t.hours % 10 < 10 := Nat.mod_lt _ (by decide)
    have m1 : t.minutes % 10 < 10 := Nat.mod_lt _ (by decide)
    have s1 : t.seconds % 10 < 10 := Nat.mod_lt _ (by decide)
    have f1 : t.frames % 10 < 10 := Nat.mod_lt _ (by decide)
    generalize t.hours / 10 = a, t.hours % 10 = b, t.minutes / 10 = c, t.minutes % 10 = d, t.seconds / 10 = e,
      t.seconds % 10 = f, t.frames / 10 = g, t.frames % 10 = h, t.drop.toNat = i, t.hold.toNat = j at *
    omega

end

/-! ### The number of a boundary (R151 to R155) -/

theorem plainNumber_fits {r c : Nat} (hours : (plainNumber r c).hours < 24) (rate : 0 < r) (few : r ≤ 60) :
    (plainNumber r c).Fits where
  hours := hours
  minutes := by
    change c / r % 3600 / 60 < 60
    omega
  seconds := Nat.mod_lt _ (by decide)
  frames := (Nat.mod_lt c rate).trans_le few

theorem dropNumber_fits {f skip total c : Nat} (rate : DropRate f skip total) (hours : (dropNumber f skip c).hours < 24) :
    (dropNumber f skip c).Fits := by
  have frames : f ≤ 60 ∧ 0 < f := by rcases rate with ⟨rfl, -, -⟩ | ⟨rfl, -, -⟩ <;> decide
  rcases lt_or_ge c total with day | past
  · obtain ⟨-, minutes, seconds, few, -⟩ := dropNumber_of_day rate day
    exact ⟨hours, minutes, seconds, few.trans_le frames.1⟩
  · rw [dropNumber_of_end rate past]
    exact ⟨show 23 < 24 by decide, show 59 < 60 by decide, show 59 < 60 by decide, show f - 1 < 60 by omega⟩

theorem RateCode.number_fits {r : RateCode} (video : r.kind = .video) (c : Nat) (hours : (r.number c).hours < 24) :
    (r.number c).Fits := by
  cases r with
  | film23 | film24 | v25 | v30 | v47 | v48 | v50 | v60 => exact plainNumber_fits hours (by decide) (by decide)
  | v29 => exact dropNumber_fits (.inl ⟨rfl, rfl, rfl⟩) hours
  | v59 => exact dropNumber_fits (.inr ⟨rfl, rfl, rfl⟩) hours
  | a48k | a96k => cases video

theorem RateCode.index_lt (r : RateCode) : r.index < 8 := by cases r <;> decide

/-- The label midnight is the start of the label day that holds the instant. -/
theorem labelMidnight_eq {offset midnight : Int} {t : Nat} (day : 86400000000000 ∣ midnight + offset * 1000000000)
    (begun : midnight ≤ t) (lasts : (t : Int) < midnight + 86400000000000) : labelMidnight offset t = midnight := by
  obtain ⟨q, whole⟩ := day
  change ((t : Int) + offset * 1000000000) / 86400000000000 * 86400000000000 - offset * 1000000000 = midnight
  omega

theorem GenSettings.firstAtOrAfter_eq {g : GenSettings} {x : Int} {first : Nat} (at' : x ≤ g.boundaryTime first)
    (before : ∀ k < first, (g.boundaryTime k : Int) < x) : g.firstAtOrAfter x = first := by
  refine le_antisymm (not_lt.mp fun later => ?_) (not_lt.mp fun earlier => ?_)
  · exact ((g.lt_firstAtOrAfter_iff x first).mp later).not_ge at'
  · exact lt_irrefl _ ((g.lt_firstAtOrAfter_iff x _).mpr (before _ earlier))

/-- The word a boundary forms is the packed number of its count since label midnight. -/
theorem State.wordOf_timecodeWord (s : State) (set : GenSettings) (n t : Nat) :
    s.WordOf set n t (timecodeWord (s.timeNumber set n t) set.rate.index) := by
  intro midnight first offset day begun lasts at' before video x hours
  have same : s.anchor.offsetAt t = offset := by
    unfold Anchor.offsetAt offset
    rfl
  have number : s.timeNumber set n t = x := by
    rw [State.timeNumber, GenSettings.count, same, labelMidnight_eq day begun lasts, GenSettings.firstAtOrAfter_eq at' before]
  obtain ⟨h10, h1, m10, m1, s10, s1, f10, f1, drop, hold, index⟩ :=
    timecodeWord_fields (RateCode.number_fits video (n - first) hours) set.rate.index_lt
  rw [number]
  refine ⟨h10, h1, m10, m1, s10, s1, f10, f1, drop, hold, index.trans ?_⟩
  cases set.rate <;> rfl

/-! ### Sending the word (R157; log 24) -/

theorem Timecode.sends_of_output {c : Timecode} {w : BitVec 32} {start : Nat} (output : c.output = some ⟨w, start + 16000⟩) :
    c.Sends w start := by
  have level (x : Nat) : c.level (start + x) = (decide (x < 16000) && w.getLsbD (31 - x / 500)) := by
    have before : start + x < start + 16000 ↔ x < 16000 := Nat.add_lt_add_iff_left
    have since : start + x + 16000 - (start + 16000) = x := by omega
    simp only [Timecode.level, output, wordHalfNs, wordBitHalfNs, before, since]
  refine ⟨fun j x last from' until' => ?_, fun x over' => ?_⟩
  · rw [level, decide_eq_true (by omega), show x / 500 = j by omega, Bool.true_and]
  · rw [level, decide_eq_false (by omega), Bool.false_and]

end Sys2Proof.Machine
end

section
/-! PROOFS. GENERATOR_BOUNDARY (R135, R136, R137, R139, R143, R146, R150; log 2, 12, 35, 46). -/

namespace Sys2Proof.Machine

theorem exec_generatorBoundary (dt : Elapsed) (i : Fin 4) (s : State) :
    exec (.generatorBoundary dt i) s = .next ((s.elapse dt).boundaryIf i) := rfl

/-! ### The word of the boundary (R150, R155) -/

/-- What a boundary of generator `i` leaves at the Timecode Unit, and the word it latches. -/
def State.Sent (u t : State) (i : Fin 4) (set : GenSettings) (n time : Nat) (word : Option (BitVec 32)) : Prop :=
  (u.timecode.binding ≠ some i → word = none ∧ t.timecode = u.timecode) ∧
  (u.timecode.binding = some i → ∃ w, word = some w ∧ u.WordOf set n time w ∧ t.timecode.lastWord = some w ∧
    t.timecode.hold = w.getLsbD 3 ∧ t.timecode.Sends w u.synthTime ∧ t.timecode.binding = u.timecode.binding ∧
    (w.getLsbD 3 = true → u.timecode.hold = false →
      Reports u t (.timecodeHeld i (set.count (u.anchor.offsetAt time) n time))))

section
variable {s : State} {i : Fin 4} {set : GenSettings} {n time : Nat}

theorem State.formWord_unbound (h : s.timecode.binding ≠ some i) : s.formWord i set n time = s := if_neg h

/-- The station with the word formed and its sending begun. -/
def State.worded (s : State) (set : GenSettings) (n time : Nat) : State :=
  s.setTimecode { s.timecode with
    lastWord := some (timecodeWord (s.timeNumber set n time) set.rate.index), hold := (s.timeNumber set n time).hold
    output := some ⟨timecodeWord (s.timeNumber set n time) set.rate.index, s.synthTime + 16000⟩ }

theorem State.formWord_bound (bound : s.timecode.binding = some i) : s.formWord i set n time =
    if (s.timeNumber set n time).hold && !s.timecode.hold then
      (s.worded set n time).raise (.timecodeHeld i (set.count (s.anchor.offsetAt time) n time))
    else s.worded set n time := if_pos bound

theorem State.formWord_timecode (bound : s.timecode.binding = some i) :
    (s.formWord i set n time).timecode = (s.worded set n time).timecode := by
  rw [State.formWord_bound bound]
  split
  · rw [State.raise_timecode]
  · rfl

theorem State.formWord_reports (bound : s.timecode.binding = some i) (holds : (s.timeNumber set n time).hold = true)
    (fresh : s.timecode.hold = false) :
    Reports s (s.formWord i set n time) (.timecodeHeld i (set.count (s.anchor.offsetAt time) n time)) := by
  rw [State.formWord_bound bound, if_pos (by rw [holds, fresh]; rfl)]
  exact (Reports.raise _ _).before rfl

/-- A word raises nothing but TIMECODE_HELD, and that only where a hold begins. -/
theorem State.formWord_silent (other : s.timecode.binding ≠ some i ∨ (s.formWord i set n time).timecode.hold = false ∨
    s.timecode.hold = true) : (s.formWord i set n time).notices = s.notices := by
  by_cases bound : s.timecode.binding = some i
  · have hold : (s.formWord i set n time).timecode.hold = (s.timeNumber set n time).hold :=
      congrArg Timecode.hold (State.formWord_timecode bound)
    rw [hold] at other
    rw [State.formWord_bound bound]
    rcases other with unbound | free | held
    · exact absurd bound unbound
    · rw [free, Bool.false_and, if_neg Bool.false_ne_true]
      rfl
    · rw [held, Bool.not_true, Bool.and_false, if_neg Bool.false_ne_true]
      rfl
  · rw [State.formWord_unbound bound]

theorem Notice.timecodeHeld_kind (count : Nat) : (Notice.timecodeHeld i count).kind = 24 := rfl

theorem State.SilentOn.formWord {k : Fin 27} (other : k ≠ 24) : State.SilentOn k s (s.formWord i set n time) := by
  by_cases bound : s.timecode.binding = some i
  · rw [State.formWord_bound bound]
    split
    · exact .raise rfl (by rwa [Notice.timecodeHeld_kind])
    · exact .of_notices rfl
  · rw [State.formWord_unbound bound]
    exact .of_notices rfl

theorem State.wordAt_bound (bound : s.timecode.binding = some i) :
    s.wordAt i set n time = some (timecodeWord (s.timeNumber set n time) set.rate.index) := if_pos bound

theorem State.wordAt_unbound (h : s.timecode.binding ≠ some i) : s.wordAt i set n time = none := if_neg h

/-- The word formed after notices have been raised is the one the boundary latches. -/
theorem State.formWord_sent {u t : State} (ns : List Notice) (timecode : t.timecode = ((u.raiseAll ns).formWord i set n time).timecode)
    (notices : t.notices = ((u.raiseAll ns).formWord i set n time).notices) :
    u.Sent t i set n time (u.wordAt i set n time) := by
  have same : (u.raiseAll ns).timecode = u.timecode := State.raiseAll_timecode ..
  have number : (u.raiseAll ns).timeNumber set n time = u.timeNumber set n time := by
    rw [State.timeNumber, State.raiseAll_anchor, State.timeNumber]
  refine ⟨fun unbound => ⟨State.wordAt_unbound unbound, ?_⟩, fun bound => ⟨_, State.wordAt_bound bound,
    State.wordOf_timecodeWord u set n time, ?_⟩⟩
  · rw [timecode, State.formWord_unbound (by rwa [same]), same]
  have bound' : (u.raiseAll ns).timecode.binding = some i := by rw [same, bound]
  have hold := timecodeWord_hold (t := u.timeNumber set n time) set.rate.index_lt
  rw [timecode, State.formWord_timecode bound', State.worded, number, State.raiseAll_synthTime, same]
  refine ⟨rfl, hold.symm, Timecode.sends_of_output rfl, rfl, fun holds fresh => ?_⟩
  have reports := State.formWord_reports (set := set) (n := n) (time := time) bound'
    (by rw [number, ← hold, holds]) (by rw [same, fresh])
  rw [State.raiseAll_anchor] at reports
  intro enabled
  rw [notices]
  exact reports ((State.raiseAll_enables ns u).symm ▸ enabled)

end

/-! ### A boundary of a running generator (R136, R139) -/

section
variable {u : State} {i : Fin 4} {set : GenSettings} {nb : NextBoundary} {a : Nat}

theorem State.boundaryDue_eq (next : (u.gens[i]).next = some nb) : u.boundaryDue i = decide (nb.instant ≤ u.synthTime) := by
  simp only [State.boundaryDue, next]

theorem State.boundaryIf_of_early (next : (u.gens[i]).next = some nb) (early : u.synthTime < nb.instant) :
    u.boundaryIf i = u := by
  rw [State.boundaryIf, State.boundaryDue_eq next]
  exact if_neg fun due => early.not_ge (of_decide_eq_true due)

theorem State.boundaryIf_of_due (next : (u.gens[i]).next = some nb) (due : nb.instant ≤ u.synthTime) :
    u.boundaryIf i = u.takeBoundary i := by
  rw [State.boundaryIf, State.boundaryDue_eq next]
  exact if_pos (decide_eq_true due)

section
variable (next : (u.gens[i]).next = some nb) (run : (u.gens[i]).run = some set) (due : nb.instant ≤ u.synthTime)
include next run due

theorem State.boundaryIf_runs (reading : u.reading = some a)
    (runs : (u.gens[i]).state = .armed ∨ (u.gens[i]).state = .running) :
    u.boundaryIf i = u.runBoundary i set nb a := by
  rw [State.boundaryIf_of_due next due]
  rcases runs with h | h <;> simp only [State.takeBoundary, next, run, h, reading]

theorem State.boundaryIf_ends (stops : (u.gens[i]).state = .stopping) : u.boundaryIf i = u.endBoundary i set nb := by
  rw [State.boundaryIf_of_due next due]
  simp only [State.takeBoundary, next, run, stops]

end

/-- How the boundary of generator `i` is numbered. -/
def State.boundaryOf (u : State) (i : Fin 4) (set : GenSettings) (nb : NextBoundary) (a : Nat) : Numbering :=
  (u.gens[i]).numbering set u.discipline.rate nb a

section
variable (u i set nb a)

/-- A boundary changes its generator, the Timecode Unit and the notices alone. -/
theorem State.runBoundary_frame : u.runBoundary i set nb a = ((u.setGens (u.runBoundary i set nb a).gens).setTimecode
    (u.runBoundary i set nb a).timecode).setNotices (u.runBoundary i set nb a).notices := by
  have formed (s : State) (n time : Nat) : s.formWord i set n time =
      (s.setTimecode (s.formWord i set n time).timecode).setNotices (s.formWord i set n time).notices := by
    by_cases bound : s.timecode.binding = some i
    · rw [State.formWord_bound bound]
      split <;> rfl
    · rw [State.formWord_unbound bound]
      rfl
  unfold State.runBoundary
  dsimp only
  rw [formed, State.raiseAll_frame]
  rfl

theorem State.runBoundary_gen (j : Fin 4) : (u.runBoundary i set nb a).gens[j] = if i = j then
    (u.gens[i]).took set (u.boundaryOf i set nb a) u.synthTime
      (u.wordAt i set (u.boundaryOf i set nb a).number (u.boundaryOf i set nb a).time) else u.gens[j] := by
  have gens : (u.runBoundary i set nb a).gens = put u.gens i ((u.gens[i]).took set (u.boundaryOf i set nb a) u.synthTime
      (u.wordAt i set (u.boundaryOf i set nb a).number (u.boundaryOf i set nb a).time)) := by
    simp [State.runBoundary, State.boundaryOf]
  simp only [gens]
  exact put_get ..

theorem State.runBoundary_notices : (u.runBoundary i set nb a).notices =
    ((u.raiseAll ((u.boundaryOf i set nb a).notices i)).formWord i set (u.boundaryOf i set nb a).number
      (u.boundaryOf i set nb a).time).notices := rfl

theorem State.runBoundary_timecode : (u.runBoundary i set nb a).timecode =
    ((u.raiseAll ((u.boundaryOf i set nb a).notices i)).formWord i set (u.boundaryOf i set nb a).number
      (u.boundaryOf i set nb a).time).timecode := rfl

theorem State.runBoundary_sent : u.Sent (u.runBoundary i set nb a) i set (u.boundaryOf i set nb a).number
    (u.boundaryOf i set nb a).time (u.wordAt i set (u.boundaryOf i set nb a).number (u.boundaryOf i set nb a).time) :=
  State.formWord_sent ((u.boundaryOf i set nb a).notices i) rfl rfl

end

/-! ### The numbering (R136, R137, R139) -/

/-- The converted length reaches a frame length exactly where the length of agreed time for it is reached. -/
theorem toSynth_lt_iff {rate x : Int} {len : Nat} (slow : rate.natAbs ≤ 100000) (positive : 0 < len) :
    toSynth rate x < len ↔ x < agreedFor rate len := by
  have pace : 0 < 1000000000 + rate := by omega
  have agreed : x < agreedFor rate len ↔ x * 1000000000 < len * (1000000000 + rate) := by
    change x < -(-(len * (1000000000 + rate)) / 1000000000) ↔ _
    generalize (len : Int) * (1000000000 + rate) = product
    omega
  rw [agreed]
  change Int.tdiv (x * 1000000000) (1000000000 + rate) < len ↔ _
  rcases le_or_gt 0 x with ahead | behind
  · rw [Int.tdiv_eq_ediv_of_nonneg (by positivity), Int.ediv_lt_iff_lt_mul pace]
  · have product : 0 < (len : Int) * (1000000000 + rate) := mul_pos (by exact_mod_cast positive) pace
    have past : Int.tdiv (x * 1000000000) (1000000000 + rate) ≤ 0 := by
      have mirrored := Int.tdiv_nonneg (a := -(x * 1000000000)) (b := 1000000000 + rate) (by omega) pace.le
      rw [Int.neg_tdiv] at mirrored
      omega
    exact iff_of_true (by omega) (by omega)

theorem RateCode.shortest_pos (r : RateCode) : 0 < r.shortest := by cases r <;> decide

theorem GenSettings.rephaseNext_eq {g : GenSettings} {rate : Int} {k : Nat} (slow : rate.natAbs ≤ 100000)
    (reaches : (g.rate.shortest : Int) ≤ toSynth rate ((g.boundaryTime (k + 1) : Int) - a))
    (short : toSynth rate ((g.boundaryTime k : Int) - a) < g.rate.shortest) : g.rephaseNext rate a = k + 1 := by
  have before := (toSynth_lt_iff slow g.rate.shortest_pos).mp short
  have after := mt (toSynth_lt_iff slow g.rate.shortest_pos).mpr reaches.not_gt
  have lower := (g.lt_firstAtOrAfter_iff (a + agreedFor rate g.rate.shortest) k).mpr (by omega)
  have upper := mt (g.lt_firstAtOrAfter_iff (a + agreedFor rate g.rate.shortest) (k + 1)).mp (by omega)
  unfold GenSettings.rephaseNext
  omega

end

/-! ### The boundary that ends a run (R135, R143) -/

section
variable {u : State} {i : Fin 4}

/-- The station once generator `i` has taken its last boundary, before it is armed again. -/
def State.runEnded (u : State) (i : Fin 4) (set : GenSettings) (nb : NextBoundary) : State :=
  u.setGens (put u.gens i ((u.gens[i]).ended set nb))

theorem State.armOne_of_disabled (disabled : (u.config.gens[i]).enable = false) : u.armOne i = u := by
  unfold State.armOne
  split
  · rfl
  · exact if_neg (by rw [disabled]; exact Bool.false_ne_true)

theorem State.endBoundary_rests (set : GenSettings) (nb : NextBoundary)
    (rests : u.station.state ≠ .agreed ∨ (u.config.gens[i]).enable = false) : u.endBoundary i set nb = u.runEnded i set nb := by
  by_cases agreed : u.station.state = .agreed
  · have disabled : ((u.runEnded i set nb).config.gens[i]).enable = false := rests.resolve_left (not_not.mpr agreed)
    exact (if_pos agreed).trans (State.armOne_of_disabled disabled)
  · exact if_neg agreed

theorem State.endBoundary_arms {a : Nat} (set : GenSettings) (nb : NextBoundary) (agreed : u.station.state = .agreed)
    (enabled : (u.config.gens[i]).enable = true) (reading : u.reading = some a) : (u.endBoundary i set nb).gens[i] =
      ((u.gens[i]).ended set nb).arm u.config.gens[i] u.discipline.rate u.synthTime a := by
  have arms : u.endBoundary i set nb = (u.runEnded i set nb).armOne i := if_pos agreed
  have off : (u.runEnded i set nb).gens[i] = (u.gens[i]).ended set nb := by
    have ended : (u.runEnded i set nb).gens[i] = if i = i then (u.gens[i]).ended set nb else u.gens[i] := put_get ..
    exact ended.trans (if_pos rfl)
  have enabled' : ((u.runEnded i set nb).config.gens[i]).enable = true := enabled
  simp only [arms]
  refine (State.armOne_get (u.runEnded i set nb) i i (a := a) reading).trans ((if_pos rfl).trans ?_)
  rw [State.armed, enabled', off]
  rfl

end

/-! ### The obligation -/

/-- Settles O49. -/
theorem generatorBoundariesTaken : Obligations.GeneratorBoundariesTaken := by
  intro dt i s set nb u g converted sent next run slow
  have goes : exec (.generatorBoundary dt i) s = .next (u.boundaryIf i) := exec_generatorBoundary dt i s
  rw [goes]
  refine ⟨fun early => congrArg _ (State.boundaryIf_of_early next early), fun a due reading runs => ?runs,
    fun due stops => ?ends⟩
  case runs =>
    rw [State.boundaryIf_runs next run due reading runs]
    have gens := u.runBoundary_gen i set nb a
    have sends := u.runBoundary_sent i set nb a
    have notices := u.runBoundary_notices i set nb a
    have timecode := u.runBoundary_timecode i set nb a
    have frame := u.runBoundary_frame i set nb a
    refine ⟨fun ordinary => ?ordinary, fun k pending reaches short => ?rephased⟩
    case ordinary =>
      have numbers : u.boundaryOf i set nb a = set.ordinary u.discipline.rate nb a :=
        if_neg (by rw [ordinary]; exact Bool.false_ne_true)
      have unnoticed : (set.ordinary u.discipline.rate nb a).notices i = [] := rfl
      rw [numbers] at gens sends notices timecode
      rw [unnoticed, raiseAll_nil] at notices timecode
      refine ⟨_, (set.ordinary u.discipline.rate nb a).length, _, rfl, (gens i).trans ((if_pos rfl).trans ?_), rfl,
        fun j other => (gens j).trans (if_neg other.symm), sends, fun quiet => notices.trans (State.formWord_silent ?_), frame⟩
      · rw [Generator.took, ← ordinary]
        rfl
      · rwa [timecode] at quiet
    case rephased =>
      have numbers : u.boundaryOf i set nb a = set.rephased u.discipline.rate nb a := if_pos pending
      have follows : set.rephased u.discipline.rate nb a = ⟨k, set.boundaryTime k, k + 1, set.boundaryTime (k + 1),
          min set.rate.longest (converted ((set.boundaryTime (k + 1) : Int) - a)).toNat, some ((k : Int) - nb.number)⟩ := by
        rw [GenSettings.rephased, GenSettings.rephaseNext_eq slow reaches short, Nat.cast_succ, add_sub_cancel_right]
        rfl
      rw [numbers, follows] at gens sends notices
      refine ⟨_, min set.rate.longest (converted ((set.boundaryTime (k + 1) : Int) - a)).toNat, _, rfl,
        (gens i).trans ((if_pos rfl).trans rfl), rfl, sends, ?_, fun j other => (gens j).trans (if_neg other.symm)⟩
      have sign : decide ((k : Int) - nb.number < 0) = decide (k < nb.number) := decide_eq_decide.mpr (by omega)
      rw [← sign]
      have raised : Reports u (u.raiseAll _) (.rephased i ((k : Int) - nb.number) (decide ((k : Int) - nb.number < 0))) :=
        Reports.raiseAll [] _ (later := []) (by simp) u
      have reports := (State.SilentOn.formWord (k := 8) (s := u.raiseAll _) (i := i) (set := set) (n := k)
        (time := set.boundaryTime k) (by decide)).after raised
      rw [Reports, notices]
      exact reports
  case ends =>
    rw [State.boundaryIf_ends next run due stops]
    refine ⟨fun rests => congrArg _ (State.endBoundary_rests set nb rests), fun a agreed enabled reading => ?_⟩
    have armed := State.endBoundary_arms set nb agreed enabled reading
    obtain ⟨time, ahead, -⟩ := (u.config.gens[i]).firstBoundary_spec u.discipline.rate u.synthTime a
    rw [time] at ahead
    exact ⟨_, (u.config.gens[i]).firstBoundary u.discipline.rate u.synthTime a, rfl, congrArg Generator.state armed,
      congrArg Generator.run armed, congrArg Generator.next armed, ahead⟩

end Sys2Proof.Machine
end

section
/-! PROOFS. The record that CONFIGURE takes from its 89 bytes (R162, R178, R179). -/

namespace Sys2Proof.Machine

/-! ### Codes (R178) -/

theorem flagByte_iff (n : Nat) : (n == 1) = true ↔ n = 1 := beq_iff_eq

theorem parseSource_of_range {n : Nat} (range : n = 1 ∨ n = 2) :
    (parseSource n).getD .xo = if n = 1 then .xo else .ref := by
  rcases range with rfl | rfl <;> rfl

theorem parseKind_of_range {n : Nat} (range : n = 1 ∨ n = 2) :
    (parseKind n).getD .video = if n = 1 then .video else .audio := by
  rcases range with rfl | rfl <;> rfl

theorem parseOnWithdraw_of_range {n : Nat} (range : n = 1 ∨ n = 2) :
    (parseOnWithdraw n).getD .stop = if n = 1 then .hold else .stop := by
  rcases range with rfl | rfl <;> rfl

theorem RateCode.code_ofCode {n : Nat} (range : 1 ≤ n ∧ n ≤ 12) : ((RateCode.ofCode n).getD .v25).code = n := by
  obtain ⟨low, high⟩ := range
  interval_cases n <;> rfl

theorem RateCode.code_paired {n : Nat} (range : n ≤ 12) : ((RateCode.ofCode n).map RateCode.code).getD 0 = n := by
  interval_cases n <;> rfl

/-! ### The settings of a generator (R131, R179) -/

section
variable {bs : List Byte}

theorem parseGen_of {g : Nat} (fits : ∀ f ∈ genRanges bs g, f.2) : (parseGen bs g).Of bs (41 + 9 * g) := by
  simp only [genRanges, List.forall_mem_cons] at fits
  obtain ⟨-, kinds, rates, pairs, -, ends, -⟩ := fits
  exact {
    enable := flagByte_iff _
    kind := parseKind_of_range (by omega)
    rate := RateCode.code_ofCode rates
    paired := RateCode.code_paired (by omega)
    delay := rfl
    onWithdraw := parseOnWithdraw_of_range ends }

/-- The ranges of each generator are among those of the record. -/
theorem ConfigFits.gen (fits : ConfigFits bs) (g : Fin 4) : ∀ f ∈ genRanges bs g.val, f.2 := fun f mem =>
  fits f (by fin_cases g <;> simp [configRanges, mem])

/-! ### The record (R179) -/

theorem parseBinding_of_range {n : Nat} (range : n = 0 ∨ n ≤ 4) :
    ((if h : n - 1 < 4 then (if n = 0 then none else some (⟨n - 1, h⟩ : Fin 4)) else none).map fun g => g.val + 1).getD 0 = n := by
  have place : n - 1 < 4 := by omega
  rw [dif_pos place]
  split
  next zero => exact zero.symm
  next nonzero => exact Nat.succ_pred_eq_of_ne_zero nonzero

theorem parseConfig_of (fits : ConfigFits bs) : (parseConfig bs).Of bs := by
  have slot : natAt bs 4 1 ≤ 31 := fits (2, natAt bs 4 1 ≤ 31) (by simp [configRanges])
  have preferred := fits (20, (natAt bs 39 1 = 1 ∧ natAt bs 37 1 = 1) ∨ (natAt bs 39 1 = 2 ∧ natAt bs 38 1 = 1))
    (by simp [configRanges])
  have binding := fits (46, natAt bs 77 1 = 0 ∨ (natAt bs 77 1 ≤ 4 ∧ natAt bs (41 + 9 * (natAt bs 77 1 - 1) + 1) 1 = 1))
    (by simp [configRanges])
  exact {
    tag := rfl
    slot := Nat.mod_eq_of_lt (Nat.lt_succ_of_le slot)
    founding := flagByte_iff _
    quorum := rfl
    window := rfl
    admission := rfl
    deadBand := rfl
    stepThreshold := rfl
    maxStep := rfl
    smoothing := rfl
    restartRounds := rfl
    slewLimit := rfl
    anchorEnabled := flagByte_iff _
    steerLimit := rfl
    captureLimit := rfl
    agreementLimit := rfl
    labelOffset := rfl
    xoEnable := flagByte_iff _
    refEnable := flagByte_iff _
    preferred := parseSource_of_range (preferred.imp And.left And.left)
    earlyActivation := flagByte_iff _
    gens := fun g => by
      have settings : (parseConfig bs).gens[g] = parseGen bs g.val := tabulate_get ..
      rw [settings]
      exact parseGen_of (fits.gen g)
    binding := parseBinding_of_range (binding.imp_right And.left)
    noticeEnables := fun k => (tabulate_get ..).trans (bitAt_eq_testBit ..)
    noticePriorities := fun k => congrArg Fin.val (tabulate_get ..) }

end

end Sys2Proof.Machine
end

section
/-! PROOFS. The Source Unit once its sources, selection or health have changed: the failover rule, the source loss in
STANDBY, and what R125 makes of the synthesizer (R120 to R122, R125, R144; log 26, 48, 51). -/

namespace Sys2Proof.Machine

/-! ### The selection that the failover rule leaves (R120) -/

/-- The source selected after the failover rule. -/
def SourceUnit.choice (u : SourceUnit) : Source := u.failoverTo.getD u.selected

section
variable {u v : SourceUnit}

theorem SourceUnit.choice_of_fit (h : (u.get u.selected).health = .unhealthy ∧
    (u.get u.selected.other).enabled = true ∧ (u.get u.selected.other).health = .healthy) :
    u.choice = u.selected.other := by
  rw [SourceUnit.choice, SourceUnit.failoverTo_of_fit h]
  rfl

theorem SourceUnit.choice_of_unfit (h : ¬((u.get u.selected).health = .unhealthy ∧
    (u.get u.selected.other).enabled = true ∧ (u.get u.selected.other).health = .healthy)) : u.choice = u.selected := by
  rw [SourceUnit.choice, SourceUnit.failoverTo_of_unfit h]
  rfl

theorem SourceUnit.get_congr (xo : u.xo = v.xo) (ref : u.ref = v.ref) (x : Source) : u.get x = v.get x := by
  cases x
  · exact xo
  · exact ref

/-- Past the failover rule a source loss is an UNHEALTHY selection. -/
theorem SourceUnit.lost_iff_of_choice (xo : v.xo = u.xo) (ref : v.ref = u.ref) (selected : v.selected = u.choice) :
    v.lost = true ↔ (v.get v.selected).health = .unhealthy := by
  refine ⟨fun lost => of_decide_eq_true (Bool.and_eq_true_iff.mp lost).1, fun unfit => ?_⟩
  refine Bool.and_eq_true_iff.mpr ⟨decide_eq_true unfit, ?_⟩
  rw [selected, SourceUnit.get_congr xo ref] at unfit
  rw [Option.isNone_iff_eq_none]
  refine SourceUnit.failoverTo_of_unfit ?_
  rw [selected, SourceUnit.get_congr xo ref, SourceUnit.get_congr xo ref]
  by_cases fit : (u.get u.selected).health = .unhealthy ∧
      (u.get u.selected.other).enabled = true ∧ (u.get u.selected.other).health = .healthy
  · rw [SourceUnit.choice_of_fit fit, fit.2.2] at unfit
    exact Health.noConfusion unfit
  · rwa [SourceUnit.choice_of_unfit fit]

end

section
variable {s : State}

theorem State.follow_follow : s.follow.follow = s.follow := by
  by_cases same : s.source.lockSource = some s.source.selected
  · rw [State.follow_of_same same, State.follow_of_same same]
  · cases synth : s.source.synth with
    | off => rw [State.follow_of_off synth, State.follow_of_off synth]
    | locking =>
      rw [State.follow_of_locking same synth]
      exact State.follow_of_same rfl
    | relocking =>
      rw [State.follow_of_relocking same synth]
      exact State.follow_of_same rfl
    | locked =>
      rw [State.follow_of_locked same synth]
      exact State.follow_of_same rfl

/-- Failover and following are one selection. -/
theorem State.failover_follow : s.failover.follow = s.select s.source.choice := by
  cases target : s.source.failoverTo with
  | none =>
    rw [State.failover_of_none target, SourceUnit.choice, target]
    rfl
  | some x =>
    rw [State.failover_of_some target, SourceUnit.choice, target]
    exact State.follow_follow

theorem State.select_of_same {x : Source} (same : s.source.lockSource = some x) :
    s.select x = s.setSource { s.source with selected := x } := State.follow_of_same same

/-- What a selection leaves of the link and the discipline: without a coast all of it (R17, R98, R122). -/
theorem State.select_frame (x : Source) : (s.select x).link = { s.link with
      built := (s.select x).link.built, transmitter := (s.select x).link.transmitter
      buildOpen := (s.select x).link.buildOpen } ∧
    (s.select x).discipline = { s.discipline with coastMark := (s.select x).discipline.coastMark } ∧
    (s.source.synth ≠ .locked ∨ s.source.lockSource = some x → (s.select x).link = s.link ∧
      (s.select x).discipline = s.discipline) := by
  by_cases same : s.source.lockSource = some x
  · rw [State.select_of_same same]
    exact ⟨rfl, rfl, fun _ => ⟨rfl, rfl⟩⟩
  · cases synth : s.source.synth with
    | off =>
      rw [State.select_of_off synth]
      exact ⟨rfl, rfl, fun _ => ⟨rfl, rfl⟩⟩
    | locking =>
      rw [State.select_of_locking same synth]
      exact ⟨rfl, rfl, fun _ => ⟨rfl, rfl⟩⟩
    | relocking =>
      rw [State.select_of_relocking same synth]
      exact ⟨rfl, rfl, fun _ => ⟨rfl, rfl⟩⟩
    | locked =>
      rw [State.select_of_locked same synth]
      exact ⟨rfl, rfl, fun k => absurd (k.resolve_left (not_not.mpr rfl)) same⟩

theorem State.select_sources (x : Source) : (s.select x).source.xo = s.source.xo ∧ (s.select x).source.ref = s.source.ref ∧
    (s.select x).source.windowTimer = s.source.windowTimer ∧ (s.select x).source.selected = x :=
  (s.setSource { s.source with selected := x }).follow_source_frame

end

/-! ### The clock lost (R85, R106, R114, R144) -/

section
variable (s : State)

theorem State.loseClock_discipline : s.loseClock.discipline = { s.discipline with
    clock := none, slew := s.loseClock.discipline.slew } := by
  unfold State.loseClock
  split
  · rw [State.endRuns, State.setGens_discipline, State.invalidateClock, State.dropAnchor_frame]
    rfl
  next invalid =>
    have unset : s.discipline.clock = none := by simpa [State.clockValid] using invalid
    rw [← unset]

theorem State.loseClock_slew (idle : s.discipline.slew = none) : s.loseClock.discipline.slew = none := by
  unfold State.loseClock
  split
  · rw [State.endRuns, State.setGens_discipline, State.invalidateClock, State.dropAnchor_frame]
    rfl
  · exact idle

theorem State.loseClock_of_invalid {s : State} (h : s.discipline.clock = none) : s.loseClock = s :=
  if_neg (by simp [State.clockValid, h])

/-- An anchor already cleared stays so, and nothing is said of it. -/
theorem State.loseClock_of_cleared {s : State} (valid : s.anchor.valid = false) (offset : s.anchor.offset = none)
    (streak : s.anchor.streak = 0) (silence : s.anchor.silence = 0) (change : s.anchor.change = none) :
    s.loseClock.anchor = s.anchor ∧ s.loseClock.notices = s.notices := by
  cases clock : s.discipline.clock with
  | none =>
    rw [State.loseClock_of_invalid clock]
    exact ⟨rfl, rfl⟩
  | some c =>
    obtain ⟨-, -, cleared, -⟩ := State.loseClock_losesClock (s := s) (by simp [State.clockValid, clock])
    refine ⟨cleared.trans ?_, ?_⟩
    · cases h : s.anchor
      simp_all
    · rw [State.loseClock, if_pos (by simp [State.clockValid, clock]), State.endRuns, State.setGens_notices]
      exact State.dropAnchor_notices _ valid

theorem Generator.endRun_configured (g : Generator) : g.endRun.configured = g.configured := by
  have twice : g.endRun.endRun = g.endRun := by
    cases state : g.state <;> simp [Generator.endRun, state, Generator.cut]
  rw [Generator.configured, Generator.configured, twice]

/-- The loss of the clock ends no run that CONFIGURE does not end too (R145). -/
theorem State.loseClock_configured (i : Fin 4) : (s.loseClock.gens[i]).configured = (s.gens[i]).configured := by
  cases clock : s.discipline.clock with
  | none => rw [State.loseClock_of_invalid clock]
  | some c => rw [State.loseClock_gen (by simp [State.clockValid, clock]), Generator.endRun_configured]

end

/-! ### STANDBY (R125) -/

section
variable {s : State} (standby : s.station.state = .standby)
include standby

theorem State.actOnLoss_lost (lost : s.source.lost = true) : s.actOnLoss = s.stopSynth.loseClock := by
  simp only [State.actOnLoss, lost, if_true, standby, State.standbyLoss]

omit standby in
theorem State.actOnLoss_sound (sound : s.source.lost = false) : s.actOnLoss = s :=
  if_neg (by rw [sound]; exact Bool.false_ne_true)

/-- A source loss in STANDBY stops the synthesizer, and R125 begins no lock on an UNHEALTHY source. -/
theorem State.settled_lost (lost : s.source.lost = true) : s.actOnLoss.standbyRule.source = s.source.stop := by
  have unfit : (s.source.get s.source.selected).health = .unhealthy :=
    of_decide_eq_true (Bool.and_eq_true_iff.mp lost).1
  have stopped : s.actOnLoss.source = s.source.stop := by
    rw [State.actOnLoss_lost standby lost, State.loseClock_source]
    rfl
  by_cases runs : s.actOnLoss.config.earlyActivation = true ∨ s.actOnLoss.clockValid = true
  · rw [State.standbyRule_runs runs (.inr ?_), stopped]
    rw [stopped, SourceUnit.stop_get]
    exact unfit
  · rw [State.standbyRule_stops runs, State.stopSynth, State.setSource_source, stopped, SourceUnit.stop_stop]

/-- Without early activation or a clock the synthesizer stops too. -/
theorem State.settled_stays (stays : ¬(s.config.earlyActivation = true ∨ s.clockValid = true)) :
    s.actOnLoss.standbyRule.source = s.source.stop := by
  cases lost : s.source.lost with
  | true => exact State.settled_lost standby lost
  | false =>
    rw [State.actOnLoss_sound lost, State.standbyRule_stops stays]
    rfl

/-- In STANDBY a source loss and R125 move the synthesizer alone of the Source Unit. -/
theorem State.settled_sources : s.actOnLoss.standbyRule.source.xo = s.source.xo ∧
    s.actOnLoss.standbyRule.source.ref = s.source.ref ∧
    s.actOnLoss.standbyRule.source.windowTimer = s.source.windowTimer ∧
    s.actOnLoss.standbyRule.source.selected = s.source.selected := by
  have rule (t : State) : t.standbyRule.source.xo = t.source.xo ∧ t.standbyRule.source.ref = t.source.ref ∧
      t.standbyRule.source.windowTimer = t.source.windowTimer ∧ t.standbyRule.source.selected = t.source.selected := by
    unfold State.standbyRule
    repeat' split
    all_goals exact ⟨rfl, rfl, rfl, rfl⟩
  cases lost : s.source.lost with
  | true =>
    rw [State.settled_lost standby lost]
    exact ⟨rfl, rfl, rfl, rfl⟩
  | false =>
    rw [State.actOnLoss_sound lost]
    exact rule s

/-- What a source loss in STANDBY does to the other blocks, where nothing of the clock is left to clear but itself. -/
theorem State.actOnLoss_cleared (slew : s.discipline.slew = none) (last : s.link.lastRoundEnd = none)
    (valid : s.anchor.valid = false) (offset : s.anchor.offset = none) (streak : s.anchor.streak = 0)
    (silence : s.anchor.silence = 0) (change : s.anchor.change = none) :
    s.actOnLoss.link = { s.link with
      followed := s.actOnLoss.link.followed, owedRoundEnd := s.actOnLoss.link.owedRoundEnd
      recentSteps := s.actOnLoss.link.recentSteps, furthest := s.actOnLoss.link.furthest } ∧
    s.actOnLoss.discipline = { s.discipline with clock := if s.source.lost then none else s.discipline.clock } ∧
    s.actOnLoss.anchor = s.anchor ∧ s.actOnLoss.notices = s.notices ∧
    (∀ i : Fin 4, (s.actOnLoss.gens[i]).configured = (s.gens[i]).configured) ∧
    s.actOnLoss.peers = s.peers ∧ s.actOnLoss.agreement = s.agreement ∧ s.actOnLoss.station = s.station ∧
    s.actOnLoss.timecode = s.timecode := by
  cases lost : s.source.lost with
  | false =>
    rw [State.actOnLoss_sound lost]
    exact ⟨rfl, rfl, rfl, rfl, fun _ => rfl, rfl, rfl, rfl, rfl⟩
  | true =>
    obtain ⟨anchor, notices⟩ := State.loseClock_of_cleared (s := s.stopSynth) valid offset streak silence change
    have none' : s.stopSynth.loseClock.link.lastRoundEnd = none := by
      unfold State.loseClock
      split
      · simp [State.endRuns, State.invalidateClock]
      · exact last
    have link := s.stopSynth.loseClock_link
    have discipline := s.stopSynth.loseClock_discipline
    rw [none'] at link
    rw [State.loseClock_slew s.stopSynth slew] at discipline
    rw [State.actOnLoss_lost standby lost]
    refine ⟨?_, ?_, anchor, notices, fun i => s.stopSynth.loseClock_configured i, by simp, by simp, by simp, by simp⟩
    · rw [link, State.stopSynth_link, ← last]
    · rw [discipline, State.stopSynth_discipline, ← slew]
      rfl

end

end Sys2Proof.Machine
end

section
/-! PROOFS. CONFIGURE taken at every block (R3, R20, R65, R101, R115, R121, R122, R125, R128, R145, R163, R170; log 26, 48). -/

namespace Sys2Proof.Machine

section
variable (r : ConfigRecord) (q : State)

/-! ### The blocks before the Source Unit -/

/-- The record stored, the anchor cleared and the sources enabled, before the failover rule. -/
def State.configBase : State :=
  ((q.storeConfig r).configureAnchor r).setSource (q.source.takeEnables r)

theorem State.configBase_frame : q.configBase r = { q with
    port := { q.port with record := some r }
    link := q.link.configure r
    peers := PeerTable.rebuilt r.slot r.tag
    agreement := Agreement.reset
    discipline := q.discipline.configure
    anchor := { q.anchor with
      label := none, silence := 0, labelOffset := r.labelOffset, change := none, offset := none, streak := 0, valid := false }
    source := q.source.takeEnables r
    notices := (q.configBase r).notices } := by
  unfold State.configBase State.configureAnchor
  rw [State.dropAnchor_frame]
  rfl

/-- ANCHOR_CHANGED where the anchor was valid, and no other notice (R106). -/
theorem State.configBase_notices : (q.configBase r).notices.enables = q.notices.enables ∧
    (∀ k : Fin 27, k ≠ 17 ∨ q.anchor.valid = false → (q.configBase r).notices.records[k] = q.notices.records[k]) ∧
    (q.anchor.valid = true → Reports q (q.configBase r) (.anchorChanged false .configure)) := by
  let b := (q.storeConfig r).setAnchor { q.anchor with
    label := none, silence := 0, labelOffset := r.labelOffset, change := none }
  have notices : (q.configBase r).notices = (b.dropAnchor .configure).notices := rfl
  rw [Reports, notices]
  refine ⟨?_, fun k quiet => ?_, fun valid => State.dropAnchor_reports (s := b) .configure valid⟩
  · unfold State.dropAnchor
    dsimp only
    split
    · rw [raise_enables]; rfl
    · rfl
  · rcases quiet with other | invalid
    · exact State.dropAnchor_record b .configure other
    · rw [State.dropAnchor_notices (s := b) .configure invalid]
      rfl

/-! ### The Source Unit -/

/-- The station with its selection made and followed, before the source loss. -/
def State.configFollowed : State := (q.configBase r).select (q.source.takeEnables r).choice

theorem State.configureSource_eq : ((q.storeConfig r).configureAnchor r).configureSource r =
    (q.configFollowed r).actOnLoss.standbyRule := by
  have source : ((q.storeConfig r).configureAnchor r).source = q.source := by
    unfold State.configureAnchor
    rw [State.dropAnchor_frame]
    rfl
  unfold State.configureSource
  rw [source]
  exact congrArg (fun t => t.actOnLoss.standbyRule) State.failover_follow

/-- What CONFIGURE leaves in the blocks past the Source Unit. -/
def State.configSettled : State := (q.configFollowed r).actOnLoss.standbyRule

theorem State.takeConfig_eq : q.takeConfig r = { q.configSettled r with
    gens := tabulate 4 fun i => ((q.configSettled r).gens[i]).configured
    timecode := { (q.configSettled r).timecode with binding := r.binding, lastWord := none, hold := false }
    notices := (q.configSettled r).notices.configure r } := by
  unfold State.takeConfig State.configSettled
  rw [State.configureSource_eq]

theorem State.configBase_config : (q.configBase r).config = r := by
  rw [State.configBase_frame]
  rfl

theorem State.configBase_source : (q.configBase r).source = q.source.takeEnables r := rfl

theorem State.configFollowed_station : (q.configFollowed r).station = q.station := by
  rw [State.configFollowed, State.select_station, State.configBase_frame]

theorem State.configFollowed_sources : (q.configFollowed r).source.xo = q.source.xo.setEnable r.xoEnable ∧
    (q.configFollowed r).source.ref = q.source.ref.setEnable r.refEnable ∧
    (q.configFollowed r).source.windowTimer = q.source.windowTimer ∧
    (q.configFollowed r).source.selected = (q.source.takeEnables r).choice :=
  (q.configBase r).select_sources _

theorem State.configFollowed_lost : (q.configFollowed r).source.lost = true ↔
    ((q.configFollowed r).source.get (q.configFollowed r).source.selected).health = .unhealthy := by
  obtain ⟨xo, ref, -, selected⟩ := (q.configBase r).select_sources (q.source.takeEnables r).choice
  exact SourceUnit.lost_iff_of_choice xo ref selected

end

section
variable {r : ConfigRecord} {q : State} (standby : q.station.state = .standby)
include standby

theorem State.configSettled_sources : (q.configSettled r).source.xo = q.source.xo.setEnable r.xoEnable ∧
    (q.configSettled r).source.ref = q.source.ref.setEnable r.refEnable ∧
    (q.configSettled r).source.windowTimer = q.source.windowTimer ∧
    (q.configSettled r).source.selected = (q.source.takeEnables r).choice := by
  obtain ⟨xo, ref, window, selected⟩ := q.configFollowed_sources r
  obtain ⟨xo', ref', window', selected'⟩ := State.settled_sources (s := q.configFollowed r)
    (by rw [State.configFollowed_station, standby])
  exact ⟨xo'.trans xo, ref'.trans ref, window'.trans window, selected'.trans selected⟩

/-- Health and enable of a source are those the enables leave it. -/
theorem State.configSettled_get (x : Source) : (q.configSettled r).source.get x = (q.source.takeEnables r).get x := by
  obtain ⟨xo, ref, -⟩ := State.configSettled_sources (r := r) standby
  exact SourceUnit.get_congr xo ref x

theorem State.configSettled_lost : (q.configFollowed r).source.lost = true ↔
    ((q.configSettled r).source.get (q.configSettled r).source.selected).health = .unhealthy := by
  obtain ⟨xo, ref, -, selected⟩ := State.settled_sources (s := q.configFollowed r)
    (by rw [State.configFollowed_station, standby])
  rw [State.configFollowed_lost, State.configSettled, selected, SourceUnit.get_congr xo ref]

/-- What CONFIGURE leaves of the blocks that a source loss can reach. -/
theorem State.configSettled_blocks : let t := q.configSettled r
    t.link = { q.link with
      echoPointer := r.slot + 1, lastRoundEnd := none, built := t.link.built, transmitter := t.link.transmitter
      buildOpen := t.link.buildOpen, followed := t.link.followed, owedRoundEnd := t.link.owedRoundEnd
      recentSteps := t.link.recentSteps, furthest := t.link.furthest } ∧
    t.discipline = { q.discipline.configure with
      clock := if (q.configFollowed r).source.lost then none else q.discipline.clock
      coastMark := (q.configFollowed r).discipline.coastMark } ∧
    t.anchor = (q.configBase r).anchor ∧ t.notices = (q.configBase r).notices ∧
    (∀ i : Fin 4, (t.gens[i]).configured = (q.gens[i]).configured) ∧ t.peers = PeerTable.rebuilt r.slot r.tag ∧
    t.agreement = Agreement.reset ∧ t.station = q.station ∧ t.timecode = q.timecode := by
  obtain ⟨followed, disciplined, -⟩ := (q.configBase r).select_frame (q.source.takeEnables r).choice
  have frame := q.configBase_frame r
  have baseLink : (q.configBase r).link = q.link.configure r := by rw [frame]
  have baseDiscipline : (q.configBase r).discipline = q.discipline.configure := by rw [frame]
  have baseAnchor : (q.configBase r).anchor = { q.anchor with
    label := none, silence := 0, labelOffset := r.labelOffset, change := none, offset := none, streak := 0, valid := false } := by
    rw [frame]
  rw [baseLink] at followed
  rw [baseDiscipline] at disciplined
  have anchor : (q.configFollowed r).anchor = (q.configBase r).anchor := State.select_anchor ..
  obtain ⟨link, discipline, anchored, notices, gens, peers, agreement, station, timecode⟩ :=
    State.actOnLoss_cleared (s := q.configFollowed r) (by rw [State.configFollowed_station, standby])
      (by rw [State.configFollowed, disciplined]; rfl) (by rw [State.configFollowed, followed]; rfl)
      (by rw [anchor, baseAnchor]) (by rw [anchor, baseAnchor]) (by rw [anchor, baseAnchor]) (by rw [anchor, baseAnchor])
      (by rw [anchor, baseAnchor])
  intro t
  have rest : t = (q.configFollowed r).actOnLoss.setSource t.source := State.standbyRule_eq _
  rw [rest]
  refine ⟨?_, ?_, anchored.trans anchor, notices.trans (State.select_notices ..), fun i => ?_, ?_, ?_,
    station.trans (q.configFollowed_station r), ?_⟩
  · have followedLink : (q.configFollowed r).link = _ := followed
    rw [State.setSource_link, link, followedLink]
    rfl
  · have followedDiscipline : (q.configFollowed r).discipline = _ := disciplined
    rw [State.setSource_discipline, discipline, followedDiscipline]
    rfl
  · simp only [State.setSource_gens]
    rw [gens i, State.configFollowed, State.select_gens, frame]
  · rw [State.setSource_peers, peers, State.configFollowed, State.select_peers, frame]
  · rw [State.setSource_agreement, agreement, State.configFollowed, State.select_agreement, frame]
  · rw [State.setSource_timecode, timecode, State.configFollowed, State.select_timecode, frame]

/-! ### The synthesizer (R121, R122, R125) -/

omit standby in
theorem State.configFollowed_runs : (q.configFollowed r).config.earlyActivation = true ∨ (q.configFollowed r).clockValid = true ↔
    r.earlyActivation = true ∨ q.discipline.clock.isSome = true := by
  obtain ⟨-, discipline, -⟩ := (q.configBase r).select_frame (q.source.takeEnables r).choice
  have config : (q.configFollowed r).config = r := by
    rw [State.config, State.configFollowed, State.select_port]
    exact q.configBase_config r
  have clock : (q.configFollowed r).clockValid = q.discipline.clock.isSome := by
    rw [State.clockValid, State.configFollowed, discipline, State.configBase_frame]
    rfl
  rw [config, clock]

theorem State.configSettled_stops (h : ¬(r.earlyActivation = true ∨ q.discipline.clock.isSome = true) ∨
    (q.configFollowed r).source.lost = true) : (q.configSettled r).source = (q.configFollowed r).source.stop := by
  have standby' : (q.configFollowed r).station.state = .standby := by rw [State.configFollowed_station, standby]
  rcases h with stays | lost
  · exact State.settled_stays standby' (mt State.configFollowed_runs.mp stays)
  · exact State.settled_lost standby' lost

section
variable (runs : r.earlyActivation = true ∨ q.discipline.clock.isSome = true)
  (fit : ((q.configSettled r).source.get (q.configSettled r).source.selected).health ≠ .unhealthy)
include runs fit

omit runs in
theorem State.configSettled_rule : q.configSettled r = (q.configFollowed r).standbyRule :=
  congrArg State.standbyRule (State.actOnLoss_sound (Bool.eq_false_iff.mpr (mt (State.configSettled_lost standby).mp fit)))

theorem State.configSettled_begins (off : (q.configFollowed r).source.synth = .off) :
    (q.configSettled r).source = (q.configFollowed r).source.lockOn .locking (some 0) := by
  have health := mt (State.configSettled_lost standby).mp fit
  rw [State.configFollowed_lost] at health
  rw [State.configSettled_rule standby fit,
    State.standbyRule_begins (State.configFollowed_runs.mpr runs) off health]
  rfl

theorem State.configSettled_keeps (on : (q.configFollowed r).source.synth ≠ .off) :
    q.configSettled r = q.configFollowed r := by
  rw [State.configSettled_rule standby fit, State.standbyRule_runs (State.configFollowed_runs.mpr runs) (.inl on)]

/-- The synthesizer after CONFIGURE, where it runs: by what it did and on which source (R121, R122, R125; log 48). -/
theorem State.configSettled_synth : let u := q.source; let t := q.configSettled r
    let new := t.source.selected
    (u.synth = .off → t.source.synth = .locking ∧ t.source.lockSource = some new ∧ t.source.lockCount = 0 ∧
      t.source.unitTimer = some 0) ∧
    (u.lockSource = some new → u.synth ≠ .off → t.source.synth = u.synth ∧ t.source.lockSource = some new ∧
      t.source.lockCount = u.lockCount ∧ t.source.unitTimer = u.unitTimer ∧ t.source.coasting = u.coasting) ∧
    (u.lockSource ≠ some new → u.synth = .locking → t.source.synth = .locking ∧ t.source.lockSource = some new ∧
      t.source.lockCount = 0 ∧ t.source.unitTimer = u.unitTimer.map (fun _ => 0) ∧ t.source.coasting = u.coasting) ∧
    (u.lockSource ≠ some new → u.synth = .relocking → t.source.synth = .relocking ∧ t.source.lockSource = some new ∧
      t.source.lockCount = 0 ∧ t.source.unitTimer = some 0 ∧ t.source.coasting = u.coasting) ∧
    (u.lockSource ≠ some new → u.synth = .locked → t.source.synth = .relocking ∧ t.source.lockSource = some new ∧
      t.source.lockCount = 0 ∧ t.source.unitTimer = some 0 ∧ t.source.coasting = true ∧ t.discipline.coastMark = true) := by
  intro u t new
  have selected : new = (q.source.takeEnables r).choice := (State.configSettled_sources standby).2.2.2
  refine ⟨fun off => ?_, fun same on => ?_, fun other locking => ?_, fun other relocking => ?_, fun other locked => ?_⟩
  · have followed : q.configFollowed r = _ := State.select_of_off (s := q.configBase r) off _
    have begins := State.configSettled_begins standby runs fit (by rw [followed]; exact off)
    refine ⟨congrArg SourceUnit.synth begins, ?_, congrArg SourceUnit.lockCount begins, congrArg SourceUnit.unitTimer begins⟩
    exact (congrArg SourceUnit.lockSource begins).trans (by rw [selected, followed]; rfl)
  · rw [selected] at same ⊢
    have followed : q.configFollowed r = _ := State.select_of_same (s := q.configBase r) same
    have keeps : t = q.configFollowed r := State.configSettled_keeps standby runs fit (by rw [followed]; exact on)
    rw [keeps, followed]
    exact ⟨rfl, same, rfl, rfl, rfl⟩
  · rw [selected] at other ⊢
    have followed : q.configFollowed r = _ := State.select_of_locking (s := q.configBase r) other locking
    have keeps : t = q.configFollowed r := State.configSettled_keeps standby runs fit (by
      rw [followed]
      exact fun off => SynthState.noConfusion (locking.symm.trans off))
    rw [keeps, followed]
    exact ⟨locking, rfl, rfl, rfl, rfl⟩
  · rw [selected] at other ⊢
    have followed : q.configFollowed r = _ := State.select_of_relocking (s := q.configBase r) other relocking
    have keeps : t = q.configFollowed r := State.configSettled_keeps standby runs fit (by
      rw [followed]
      exact fun off => SynthState.noConfusion (relocking.symm.trans off))
    rw [keeps, followed]
    exact ⟨relocking, rfl, rfl, rfl, rfl⟩
  · rw [selected] at other ⊢
    have followed : q.configFollowed r = _ := State.select_of_locked (s := q.configBase r) other locked
    have keeps : t = q.configFollowed r := State.configSettled_keeps standby runs fit (by
      rw [followed]
      exact SynthState.noConfusion)
    rw [keeps, followed]
    exact ⟨rfl, rfl, rfl, rfl, rfl, rfl⟩

end

end

/-! ### The obligation -/

/-- A record that leaves the lock source enabled takes no lock away (R128). -/
theorem SourceUnit.disablesLock_eq_false {u : SourceUnit} {ps : List Byte} (h : u.synth = .off ∨ u.lockSource = none ∨
    ∃ x : Source, u.lockSource = some x ∧ natAt ps (match x with | .xo => 37 | .ref => 38) 1 = 1) :
    u.disablesLock (parseConfig ps) = false := by
  rcases h with off | free | ⟨x, lock, enabled⟩
  · simp [SourceUnit.disablesLock, off]
  · cases synth : u.synth <;> simp [SourceUnit.disablesLock, synth, free]
  · cases synth : u.synth <;> cases x <;> simp_all [SourceUnit.disablesLock, parseConfig]

/-- A generator at CONFIGURE (R145). -/
theorem Generator.configured_spec (g : Generator) :
    ((g.state = .running ∨ g.state = .stopping) →
      g.configured = { g with state := .stopping, rephasePending := false, rephaseCount := 0, latched := none }) ∧
    (g.state = .armed → g.configured = { g with
      state := .off, next := none, pinHighUntil := none, rephasePending := false, rephaseCount := 0, latched := none }) ∧
    (g.state = .off → g.configured = { g with rephasePending := false, rephaseCount := 0, latched := none }) := by
  obtain ⟨running, armed, ended⟩ := g.endRun_spec
  unfold Generator.configured
  refine ⟨fun h => ?_, fun h => by rw [armed h], fun h => by rw [ended (.inl h)]⟩
  rcases h with h | h
  · rw [running h]
  · rw [ended (.inr h), ← h]

/-- Settles O7. -/
theorem configureTaken : Obligations.ConfigureTaken := by
  intro dt ps s q length standby fits kept
  have accepted : q.refuseConfigure ps = none := by
    rw [State.refuseConfigure_own length standby fits, SourceUnit.disablesLock_eq_false kept]
    rfl
  let r := parseConfig ps
  let settled := q.configSettled r
  obtain ⟨link, discipline, anchor, notices, gens, peers, agreement, station, timecode⟩ :=
    State.configSettled_blocks (r := r) standby
  obtain ⟨xo, ref, window, selected⟩ := State.configSettled_sources (r := r) standby
  obtain ⟨enables, quiet, reports⟩ := q.configBase_notices r
  have unfit := State.configSettled_lost (r := r) standby
  have baseAnchor : (q.configBase r).anchor = _ := congrArg State.anchor (q.configBase_frame r)
  have taken : q.takeConfig r = _ := q.takeConfig_eq r
  have goes : exec (.configure dt ps) s = .next ((q.takeConfig r).setPort { (q.takeConfig r).port with
      response := [0x00#8, 0x00#8, 0x00#8, 0x00#8] }) := by
    rw [exec_configure, accepted, State.serve_noData]
  have port : settled.port.record = some r := by
    have same : settled.port = (q.configBase r).port := by simp [settled, State.configSettled, State.configFollowed]
    rw [same, State.configBase_frame]
  have time : settled.synthTime = q.synthTime := by
    have same : settled.synthTime = (q.configBase r).synthTime := by
      simp [settled, State.configSettled, State.configFollowed]
    rw [same, State.configBase_frame]
  refine ⟨_, r, goes, rfl, ?port, parseConfig_of fits, ?rest⟩
  case port =>
    rw [taken]
    exact port
  case rest =>
    rw [taken]
    refine ⟨link, fun i => ?entries, ?hold, agreement, ⟨fun lost => ?lost, fun sound => ?sound⟩, ?discipline, ?anchor,
      ?sources, ?synth, fun i => ?gens, ?timecode, ?notices, station, time⟩
    case entries =>
      have table : settled.peers = PeerTable.rebuilt r.slot r.tag := peers
      exact (congrArg (fun t : PeerTable => t.entries[i]) table).trans (PeerTable.rebuilt_entry r.slot r.tag i)
    case hold => exact congrArg PeerTable.hold peers
    case lost =>
      exact (congrArg Discipline.clock discipline).trans (if_pos (unfit.mpr lost))
    case sound =>
      exact (congrArg Discipline.clock discipline).trans (if_neg (mt unfit.mp sound))
    case discipline =>
      have reads {α : Type} (f : Discipline → α) : f settled.discipline = f _ := congrArg f discipline
      refine ⟨reads (·.restart), reads (·.slew), reads (·.joiningStepTaken), reads (·.rate), reads (·.band),
        reads (·.holdoverValue), reads (·.holdoverValid), fun idle => (reads (·.coastMark)).trans ?_⟩
      change q.source.synth ≠ .locked ∨ q.source.lockSource = some settled.source.selected at idle
      rw [selected] at idle
      obtain ⟨-, -, stays⟩ := (q.configBase r).select_frame (q.source.takeEnables r).choice
      exact (congrArg Discipline.coastMark (stays idle).2).trans (by rw [State.configBase_frame]; rfl)
    case anchor =>
      have reads {α : Type} (f : Anchor → α) : f settled.anchor = f _ := congrArg f (anchor.trans baseAnchor)
      exact ⟨reads (·.labelOffset), reads (·.change), reads (·.label), reads (·.offset), reads (·.streak),
        reads (·.silence), reads (·.valid)⟩
    case sources =>
      intro enabled first replaced
      have get (x : Source) : settled.source.get x = (q.source.takeEnables r).get x := State.configSettled_get standby x
      refine ⟨xo, ref, fun fails => selected.trans (SourceUnit.choice_of_fit ?_),
        fun stays => selected.trans (SourceUnit.choice_of_unfit (mt ?_ stays)), window⟩
      · rw [← get, ← get]
        exact fails
      · rw [← get, ← get]
        exact id
    case synth =>
      intro runs fit
      have stops (h : ¬runs ∨ ¬fit) : settled.source = (q.configFollowed r).source.stop :=
        State.configSettled_stops standby (h.imp_right fun poor => unfit.mpr (not_not.mp poor))
      have reads {α : Type} (f : SourceUnit → α) (h : ¬runs ∨ ¬fit) : f settled.source = f _ := congrArg f (stops h)
      refine ⟨fun h => ⟨reads (·.synth) h, reads (·.lockSource) h, reads (·.unitTimer) h, reads (·.coasting) h⟩, ?_⟩
      by_cases goes : runs ∧ fit
      · obtain ⟨off, same, locking, relocking, locked⟩ := State.configSettled_synth standby goes.1 goes.2
        exact ⟨fun _ _ => off, fun _ _ => same, fun _ _ => locking, fun _ _ => relocking, fun _ _ => locked⟩
      · exact ⟨fun go good => absurd ⟨go, good⟩ goes, fun go good => absurd ⟨go, good⟩ goes,
          fun go good => absurd ⟨go, good⟩ goes, fun go good => absurd ⟨go, good⟩ goes,
          fun go good => absurd ⟨go, good⟩ goes⟩
    case gens =>
      have configured : (tabulate 4 fun i => (settled.gens[i]).configured)[i] = (q.gens[i]).configured :=
        (tabulate_get ..).trans (gens i)
      simp only [State.setPort_gens]
      rw [configured]
      exact (q.gens[i]).configured_spec
    case timecode => exact congrArg (fun t : Timecode => { t with binding := r.binding, lastWord := none, hold := false }) timecode
    case notices =>
      have records (k : Fin 27) : (settled.notices.configure r).records[k] =
          if r.noticeEnables[k] then (q.configBase r).notices.records[k] else none := by
        rw [← notices]
        exact tabulate_get ..
      refine ⟨rfl, rfl, fun k disabled => ?_, fun k enabled silent => ?_, fun valid was enabled => ?_⟩
      · exact (records k).trans (if_neg (by rw [disabled]; exact Bool.false_ne_true))
      · exact ((records k).trans (if_pos enabled)).trans (quiet k silent)
      · exact (congrArg (Option.map _) ((records 17).trans (if_pos enabled))).trans (reports valid was)

end Sys2Proof.Machine
end

section
/-! PROOFS. Entry into STALLED block by block, and what a source loss and a recovery report (R41, R62, R82, R102, R106,
R120, R126, R144, R157). -/

namespace Sys2Proof.Machine

/-! ### Entry into STALLED -/

section
variable (s : State)

theorem State.enterStalled_source : s.enterStalled.source = s.source.stop := by
  simp [State.enterStalled, State.stopSynth, State.cutGens]

theorem State.enterStalled_state : s.enterStalled.station.state = .stalled := by
  rw [State.enterStalled_station]

theorem State.enterStalled_agreement : s.enterStalled.agreement = ⟨none, none, 0, 0⟩ := by
  simp [State.enterStalled, State.cutGens, Agreement.reset]

theorem State.enterStalled_timecode : s.enterStalled.timecode = { s.timecode with output := none } := by
  simp [State.enterStalled, State.cutGens]

theorem State.enterStalled_discipline : s.enterStalled.discipline.clock = none ∧ s.enterStalled.discipline.slew = none ∧
    s.enterStalled.discipline.coastMark = false ∧ s.enterStalled.discipline.rate = s.discipline.rate := by
  simp [State.enterStalled, State.cutGens, Discipline.stall, State.invalidateClock]

theorem State.enterStalled_link : s.enterStalled.link.mode = .off ∧ s.enterStalled.link.built = none ∧
    s.enterStalled.link.transmitter = none := by
  simp [State.enterStalled, State.cutGens, State.invalidateClock, State.stallLink, State.enterMode, State.cutOff]

theorem State.enterStalled_anchor : s.enterStalled.anchor.valid = false ∧ s.enterStalled.anchor.offset = none ∧
    s.enterStalled.anchor.change = none := by
  simp only [State.enterStalled, State.cutGens, State.stopSynth_anchor, State.setGens_anchor, State.invalidateClock]
  rw [State.dropAnchor_frame]
  exact ⟨rfl, rfl, rfl⟩

theorem State.enterStalled_gen (i : Fin 4) : s.enterStalled.gens[i] = (s.gens[i]).cut := by
  have gens : s.enterStalled.gens = tabulate 4 fun i => (s.gens[i]).cut := by
    simp [State.enterStalled, State.cutGens]
  simp only [gens]
  exact tabulate_get ..

theorem PeerTable.clear_entry (t : PeerTable) (i : Fin 32) :
    t.clear.entries[i] = if (t.entries[i]).state = .self then t.entries[i] else PeerEntry.empty := tabulate_get ..

/-! ### What the transitions report -/

theorem State.enterStalled_notices : s.enterStalled.notices = ((s.move .stalled .source).stallLink.invalidateClock).notices := by
  simp [State.enterStalled, State.cutGens]

theorem State.stallLink_notices_of_move (st : StationState) (c : Cause) :
    (s.move st c).stallLink.notices = (s.raise (.stateChanged st c)).notices := by
  simp [State.move_notices]

section
variable {s}

theorem State.SilentOn.dropAnchor {k : Fin 27} (c : AnchorCause) (other : k ≠ 17) : State.SilentOn k s (s.dropAnchor c) where
  enables := by
    unfold State.dropAnchor
    dsimp only
    split
    · rw [raise_enables]; rfl
    · rfl
  record := s.dropAnchor_record c other

theorem State.SilentOn.invalidateClock {k : Fin 27} (other : k ≠ 17) : State.SilentOn k s s.invalidateClock :=
  (State.SilentOn.dropAnchor .clock other).since rfl

theorem State.SilentOn.enterStalled {k : Fin 27} (moved : k ≠ 1) (other : k ≠ 17) : State.SilentOn k s s.enterStalled :=
  ((State.SilentOn.move s .stalled .source moved).trans (.of_notices (by simp))).trans
    ((State.SilentOn.invalidateClock (s := (s.move .stalled .source).stallLink) other).trans
      (.of_notices s.enterStalled_notices))

theorem State.SilentOn.loseClock {k : Fin 27} (other : k ≠ 17) : State.SilentOn k s s.loseClock := by
  unfold State.loseClock
  split
  · exact (State.SilentOn.invalidateClock other).trans (.of_notices rfl)
  · exact .of_notices rfl

theorem State.SilentOn.enterStarting {k : Fin 27} (c : Cause) (moved : k ≠ 1) (other : k ≠ 17) :
    State.SilentOn k s (s.enterStarting c) := by
  have starts : State.SilentOn k s (s.starts c) :=
    (State.SilentOn.move s .starting c moved).trans (.of_notices (by simp [State.starts]))
  cases lost : s.source.lost with
  | false =>
    rw [State.enterStarting_of_sound lost]
    exact starts
  | true =>
    rw [State.enterStarting_of_lost lost]
    exact starts.trans (.enterStalled moved other)

theorem State.SilentOn.actOnLoss {k : Fin 27} (moved : k ≠ 1) (other : k ≠ 17) : State.SilentOn k s s.actOnLoss := by
  unfold State.actOnLoss
  split
  · split
    case h_1 => exact (State.SilentOn.loseClock (s := s.stopSynth) other).since rfl
    case h_2 => exact .of_notices rfl
    all_goals exact .enterStalled moved other
  · exact .of_notices rfl

theorem State.SilentOn.actOnRecovery {k : Fin 27} (moved : k ≠ 1) (other : k ≠ 17) : State.SilentOn k s s.actOnRecovery := by
  unfold State.actOnRecovery
  split
  · exact .enterStarting _ moved other
  · exact .of_notices rfl

end

theorem State.enterStalled_reports : Reports s s.enterStalled (.stateChanged .stalled .source) :=
  ((State.SilentOn.invalidateClock (k := 1) (s := (s.move .stalled .source).stallLink) (by decide)).trans
    (.of_notices s.enterStalled_notices)).after
    ((State.SilentOn.of_notices (k := 1) (by simp)).after (State.move_reports .stalled .source s))

theorem State.enterStalled_reports_anchor (valid : s.anchor.valid = true) :
    Reports s s.enterStalled (.anchorChanged false .clock) := by
  have moved : (s.move .stalled .source).stallLink.notices.enables = s.notices.enables := by simp
  let t := (s.move .stalled .source).stallLink
  have dropped : Reports t t.invalidateClock (.anchorChanged false .clock) := by
    have valid' : t.anchor.valid = true := by simpa [t] using valid
    exact (State.dropAnchor_reports .clock (s := { t with
      discipline := { t.discipline with clock := none, slew := none }
      link := { t.link with lastRoundEnd := none, followed := none, owedRoundEnd := none, recentSteps := [], furthest := none }
      anchor := { t.anchor with change := none, silence := 0 } }) valid').before rfl
  rw [Reports, s.enterStalled_notices]
  exact dropped.before moved

end

end Sys2Proof.Machine
end

section
/-! PROOFS. SUPERVISOR_WINDOW_END (R118 to R122, R125; log 2, 27, 43, 48, 51). -/

namespace Sys2Proof.Machine

/-! ### The judgement of a window (R118, R119) -/

theorem SourceUnit.windowEnd_get (u : SourceUnit) (x : Source) : u.windowEnd.get x = (u.get x).windowEnd x := by
  cases x <;> rfl

section
variable (x : Source) (r : SourceRecord)

theorem SourceRecord.windowEnd_frame : (r.windowEnd x).enabled = r.enabled ∧ (r.windowEnd x).count = 0 ∧
    (r.windowEnd x).whole = r.enabled := by
  unfold SourceRecord.windowEnd SourceRecord.countRuns
  repeat' split
  all_goals exact ⟨rfl, rfl, rfl⟩

theorem Source.goodCount_iff (count : Nat) : x.goodCount count = true ↔
    match x with
    | .xo => 49500 ≤ count ∧ count ≤ 50500
    | .ref => 19800 ≤ count ∧ count ≤ 20200 := by
  cases x <;> simp [Source.goodCount]

section
variable {x r} (enabled : r.enabled = true) (whole : r.whole = true)
include enabled whole

theorem SourceRecord.windowEnd_judged : r.windowEnd x = { r.countRuns (x.goodCount r.count) with
    health := (r.countRuns (x.goodCount r.count)).healthAfter, count := 0, whole := r.enabled } := by
  simp [SourceRecord.windowEnd, enabled, whole]

theorem SourceRecord.windowEnd_runs :
    (x.goodCount r.count = true → (r.windowEnd x).good = min 16 (r.good + 1) ∧ (r.windowEnd x).bad = 0) ∧
    (x.goodCount r.count = false → (r.windowEnd x).good = 0 ∧ (r.windowEnd x).bad = min 2 (r.bad + 1)) := by
  rw [SourceRecord.windowEnd_judged enabled whole]
  refine ⟨fun good => ?_, fun bad => ?_⟩
  · rw [good]
    exact ⟨rfl, rfl⟩
  · rw [bad]
    exact ⟨rfl, rfl⟩

theorem SourceRecord.windowEnd_health : let q := r.windowEnd x
    (r.health = .learning → q.health = if q.bad = 2 then .unhealthy else if q.good = 16 then .healthy else .learning) ∧
    (r.health = .healthy → q.health = if q.bad = 2 then .unhealthy else .healthy) ∧
    (r.health = .unhealthy → q.health = if q.good = 16 then .healthy else .unhealthy) := by
  have kept : (r.countRuns (x.goodCount r.count)).health = r.health := by
    unfold SourceRecord.countRuns
    split <;> rfl
  rw [SourceRecord.windowEnd_judged enabled whole]
  refine ⟨fun h => ?_, fun h => ?_, fun h => ?_⟩ <;> simp only [SourceRecord.healthAfter, kept, h]

end

end

/-! ### The unit after the judgement -/

section
variable {u : State}

/-- The station with its window judged and the changes of health reported, before the failover rule. -/
def State.judged (u : State) : State := (u.setSource u.source.windowEnd).raiseAll u.source.windowNotices

theorem State.judged_frame : u.judged = (u.setSource u.source.windowEnd).setNotices u.judged.notices :=
  State.raiseAll_frame ..

/-- A window end past the judgement: failover, loss or recovery, and R125 in STANDBY. -/
def State.windowSettled (u : State) : State := u.judged.failover.actOnLoss.actOnRecovery.standbyRuleHere

theorem exec_supervisorWindowEnd (dt : Elapsed) (s : State) : exec (.supervisorWindowEnd dt) s =
    .next (if (s.elapse dt).windowIsOver then (s.elapse dt).windowSettled else s.elapse dt) := rfl

theorem State.standbyRuleHere_elsewhere (h : u.station.state ≠ .standby) : u.standbyRuleHere = u := if_neg h

theorem State.standbyRuleHere_standby (h : u.station.state = .standby) : u.standbyRuleHere = u.standbyRule := if_pos h

theorem State.actOnRecovery_elsewhere (h : u.station.state ≠ .stalled) : u.actOnRecovery = u :=
  if_neg fun k => h k.1

theorem State.actOnRecovery_unfit (h : (u.source.get u.source.selected).health ≠ .healthy) : u.actOnRecovery = u :=
  if_neg fun k => h k.2

theorem State.actOnRecovery_recovers (stalled : u.station.state = .stalled)
    (healthy : (u.source.get u.source.selected).health = .healthy) : u.actOnRecovery = u.enterStarting .recovered :=
  if_pos ⟨stalled, healthy⟩

theorem SourceUnit.lost_of_fit {v : SourceUnit} (h : (v.get v.selected).health ≠ .unhealthy) : v.lost = false := by
  simp [SourceUnit.lost, h]

theorem SourceUnit.failoverTo_eq_none_iff {v : SourceUnit} : v.failoverTo = none ↔
    ((v.get v.selected).health = .unhealthy →
      (v.get v.selected.other).enabled = false ∨ (v.get v.selected.other).health ≠ .healthy) := by
  unfold SourceUnit.failoverTo
  simp only
  split
  next fit => simp [fit]
  next unfit =>
    refine iff_of_true rfl fun bad => ?_
    by_contra other
    rw [not_or, not_not, Bool.not_eq_false] at other
    exact unfit ⟨bad, other⟩

/-- The condition of a source loss (R120). -/
theorem SourceUnit.lost_iff {v : SourceUnit} : v.lost = true ↔ (v.get v.selected).health = .unhealthy ∧
    ((v.get v.selected.other).enabled = false ∨ (v.get v.selected.other).health ≠ .healthy) := by
  rw [SourceUnit.lost, Bool.and_eq_true, decide_eq_true_eq, Option.isNone_iff_eq_none, SourceUnit.failoverTo_eq_none_iff]
  exact and_congr_right fun bad => forall_prop_of_true bad

/-! ### What follows the judgement, case by case -/

theorem State.judged_source : u.judged.source = u.source.windowEnd := by rw [State.judged_frame]; rfl

theorem State.judged_station : u.judged.station = u.station := by rw [State.judged_frame]; rfl

section
variable (fit : (u.source.windowEnd.get u.source.selected).health ≠ .unhealthy)
include fit

/-- A selection that is not UNHEALTHY stays. -/
theorem State.judged_sound : u.windowSettled = u.judged.actOnRecovery.standbyRuleHere := by
  have stays : u.source.windowEnd.failoverTo = none := SourceUnit.failoverTo_eq_none_iff.mpr fun bad => absurd bad fit
  have failover : u.judged.failover = u.judged := State.failover_of_none (by rw [State.judged_source, stays])
  have sound : u.judged.source.lost = false := by rw [State.judged_source]; exact SourceUnit.lost_of_fit fit
  rw [State.windowSettled, failover, State.actOnLoss_sound sound]

theorem State.windowSettled_sound (active : u.station.state ≠ .standby) (live : u.station.state ≠ .stalled) :
    u.windowSettled = u.judged := by
  rw [State.judged_sound fit, State.actOnRecovery_elsewhere (by rwa [State.judged_station]),
    State.standbyRuleHere_elsewhere (by rwa [State.judged_station])]

theorem State.windowSettled_sound_standby (standby : u.station.state = .standby) :
    u.windowSettled = u.judged.standbyRule := by
  rw [State.judged_sound fit,
    State.actOnRecovery_elsewhere (by rw [State.judged_station, standby]; exact StationState.noConfusion),
    State.standbyRuleHere_standby (by rw [State.judged_station, standby])]

end

theorem State.standbyRuleHere_starting {s : State} {c : Cause} (sound : s.source.lost = false) :
    (s.enterStarting c).standbyRuleHere = s.starts c := by
  rw [State.enterStarting_of_sound sound]
  refine State.standbyRuleHere_elsewhere ?_
  rw [(s.starts_station c).1]
  exact StationState.noConfusion

/-- A HEALTHY selection brings the station out of STALLED (R42). -/
theorem State.windowSettled_recovers (stalled : u.station.state = .stalled)
    (healthy : (u.source.windowEnd.get u.source.selected).health = .healthy) :
    u.windowSettled = u.judged.starts .recovered := by
  have fit : (u.source.windowEnd.get u.source.selected).health ≠ .unhealthy := by
    rw [healthy]
    exact Health.noConfusion
  have sound : u.judged.source.lost = false := by rw [State.judged_source]; exact SourceUnit.lost_of_fit fit
  rw [State.judged_sound fit, State.actOnRecovery_recovers (by rwa [State.judged_station])
    (by rw [State.judged_source]; exact healthy), State.standbyRuleHere_starting sound]

section
variable (lost : u.source.windowEnd.lost = true)
include lost

theorem State.judged_failover_of_lost : u.judged.failover = u.judged :=
  State.failover_of_none (by
    rw [State.judged_source]
    exact Option.isNone_iff_eq_none.mp (Bool.and_eq_true_iff.mp lost).2)

theorem State.windowSettled_lost (active : u.station.state ≠ .standby) (live : u.station.state ≠ .stalled) :
    u.windowSettled = u.judged.enterStalled := by
  have stalls : u.judged.actOnLoss = u.judged.enterStalled := by
    unfold State.actOnLoss
    rw [if_pos (by rwa [State.judged_source]), State.judged_station]
    split
    case h_1 standby => exact absurd standby active
    case h_2 stalled => exact absurd stalled live
    all_goals rfl
  rw [State.windowSettled, State.judged_failover_of_lost lost, stalls, State.actOnRecovery_unfit,
    State.standbyRuleHere_elsewhere (by rw [State.enterStalled_state]; exact StationState.noConfusion)]
  rw [State.enterStalled_source, SourceUnit.stop_get, State.judged_source]
  change (u.source.windowEnd.get u.source.windowEnd.selected).health ≠ .healthy
  rw [(SourceUnit.lost_iff.mp lost).1]
  exact Health.noConfusion

theorem State.windowSettled_lost_stalled (stalled : u.station.state = .stalled) : u.windowSettled = u.judged := by
  have stays : u.judged.actOnLoss = u.judged := by
    simp only [State.actOnLoss, State.judged_station, stalled, ite_self]
  rw [State.windowSettled, State.judged_failover_of_lost lost, stays, State.actOnRecovery_unfit,
    State.standbyRuleHere_elsewhere (by rw [State.judged_station, stalled]; exact StationState.noConfusion)]
  rw [State.judged_source, (SourceUnit.lost_iff.mp lost).1]
  exact Health.noConfusion

theorem State.windowSettled_lost_standby (standby : u.station.state = .standby) :
    u.windowSettled = u.judged.stopSynth.loseClock.standbyRule := by
  have loses : u.judged.actOnLoss = u.judged.stopSynth.loseClock :=
    State.actOnLoss_lost (by rw [State.judged_station, standby]) (by rwa [State.judged_source])
  have station : u.judged.stopSynth.loseClock.station.state = .standby := by
    rw [State.loseClock_station, State.stopSynth_station, State.judged_station, standby]
  rw [State.windowSettled, State.judged_failover_of_lost lost, loses,
    State.actOnRecovery_elsewhere (by rw [station]; exact StationState.noConfusion), State.standbyRuleHere_standby station]

end

section
variable (unfit : (u.source.windowEnd.get u.source.selected).health = .unhealthy)
  (other : (u.source.windowEnd.get u.source.selected.other).enabled = true ∧
    (u.source.windowEnd.get u.source.selected.other).health = .healthy)
include unfit other

/-- A failover moves the selection to the HEALTHY other source (R120). -/
theorem State.judged_switched :
    u.windowSettled = (u.judged.select u.source.selected.other).actOnRecovery.standbyRuleHere := by
  have target : u.judged.source.failoverTo = some u.source.selected.other := by
    rw [State.judged_source]
    exact SourceUnit.failoverTo_of_fit ⟨unfit, other⟩
  have sound : (u.judged.select u.source.selected.other).source.lost = false := by
    obtain ⟨xo, ref, -, selected⟩ := u.judged.select_sources u.source.selected.other
    refine SourceUnit.lost_of_fit ?_
    rw [selected, SourceUnit.get_congr xo ref, State.judged_source, other.2]
    exact Health.noConfusion
  rw [State.windowSettled, State.failover_of_some target, State.actOnLoss_sound sound]

theorem State.windowSettled_switched (active : u.station.state ≠ .standby) (live : u.station.state ≠ .stalled) :
    u.windowSettled = u.judged.select u.source.selected.other := by
  have station : (u.judged.select u.source.selected.other).station = u.station := by
    rw [State.select_station, State.judged_station]
  rw [State.judged_switched unfit other, State.actOnRecovery_elsewhere (by rwa [station]),
    State.standbyRuleHere_elsewhere (by rwa [station])]

theorem State.windowSettled_switched_standby (standby : u.station.state = .standby) :
    u.windowSettled = (u.judged.select u.source.selected.other).standbyRule := by
  have station : (u.judged.select u.source.selected.other).station.state = .standby := by
    rw [State.select_station, State.judged_station, standby]
  rw [State.judged_switched unfit other,
    State.actOnRecovery_elsewhere (by rw [station]; exact StationState.noConfusion), State.standbyRuleHere_standby station]

theorem State.windowSettled_switched_stalled (stalled : u.station.state = .stalled) :
    u.windowSettled = (u.judged.select u.source.selected.other).starts .recovered := by
  obtain ⟨xo, ref, -, selected⟩ := u.judged.select_sources u.source.selected.other
  have healthy : ((u.judged.select u.source.selected.other).source.get
      (u.judged.select u.source.selected.other).source.selected).health = .healthy := by
    rw [selected, SourceUnit.get_congr xo ref, State.judged_source, other.2]
  rw [State.judged_switched unfit other,
    State.actOnRecovery_recovers (by rw [State.select_station, State.judged_station, stalled]) healthy,
    State.standbyRuleHere_starting (SourceUnit.lost_of_fit (by rw [healthy]; exact Health.noConfusion))]

end

/-! ### The notices (R119; log 27) -/

/-- No transition that a window end leads to reports of a source. -/
theorem State.windowSettled_silent {k : Fin 27} (moved : k ≠ 1) (dropped : k ≠ 17) :
    State.SilentOn k u.judged u.windowSettled := by
  have rule (s : State) : s.standbyRuleHere.notices = s.notices := by
    unfold State.standbyRuleHere
    split
    · rw [State.standbyRule_notices]
    · rfl
  exact (((State.SilentOn.of_notices (State.failover_notices _)).trans (.actOnLoss moved dropped)).trans
    (.actOnRecovery moved dropped)).trans (.of_notices (rule _))

section
variable {u v : SourceUnit} {x : Source}

theorem healthNotices_failed (h : (u.get x).health ≠ .unhealthy ∧ (v.get x).health = .unhealthy) :
    healthNotices u v x = [.sourceFailed x .windows (v.failAction x)] := if_pos h

theorem healthNotices_restored (h : (u.get x).health = .unhealthy ∧ (v.get x).health = .healthy) :
    healthNotices u v x = [.sourceRestored x (decide (x = v.selected))] :=
  (if_neg fun k => k.1 h.1).trans (if_pos h)

theorem healthNotices_unfailed (h : ¬((u.get x).health ≠ .unhealthy ∧ (v.get x).health = .unhealthy)) :
    ∀ n ∈ healthNotices u v x, 2 ≠ n.kind := by
  intro n mem
  rw [healthNotices, if_neg h] at mem
  split at mem
  · rw [List.mem_singleton.mp mem]
    exact (by decide : (2 : Fin 27) ≠ 3)
  · cases mem

theorem healthNotices_unrestored (h : ¬((u.get x).health = .unhealthy ∧ (v.get x).health = .healthy)) :
    ∀ n ∈ healthNotices u v x, 3 ≠ n.kind := by
  intro n mem
  rw [healthNotices, if_neg h] at mem
  split at mem
  · rw [List.mem_singleton.mp mem]
    exact (by decide : (3 : Fin 27) ≠ 2)
  · cases mem

end

section
variable {n : Notice}

theorem State.judged_reports_selected (said : healthNotices u.source u.source.windowEnd u.source.selected = [n]) :
    Reports u u.judged n := by
  have reports := Reports.raiseAll (healthNotices u.source u.source.windowEnd u.source.selected.other) n (later := [])
    (fun _ mem => nomatch mem) (u.setSource u.source.windowEnd)
  rw [← said] at reports
  exact reports.before rfl

theorem State.judged_reports_other (said : healthNotices u.source u.source.windowEnd u.source.selected.other = [n])
    (quiet : ∀ m ∈ healthNotices u.source u.source.windowEnd u.source.selected, n.kind ≠ m.kind) : Reports u u.judged n := by
  have reports := Reports.raiseAll [] n quiet (u.setSource u.source.windowEnd)
  rw [List.nil_append, ← List.singleton_append, ← said] at reports
  exact reports.before rfl

end

end

/-! ### The sources, the window and the selection -/

/-- The same sources, window and selection. -/
structure SourceUnit.Alike (u v : SourceUnit) : Prop where
  xo : v.xo = u.xo
  ref : v.ref = u.ref
  windowTimer : v.windowTimer = u.windowTimer
  selected : v.selected = u.selected

theorem SourceUnit.Alike.trans {u v w : SourceUnit} (h : u.Alike v) (k : v.Alike w) : u.Alike w :=
  ⟨k.xo.trans h.xo, k.ref.trans h.ref, k.windowTimer.trans h.windowTimer, k.selected.trans h.selected⟩

theorem SourceUnit.alike_refl (u : SourceUnit) : u.Alike u := ⟨rfl, rfl, rfl, rfl⟩

theorem SourceUnit.alike_stop (u : SourceUnit) : u.Alike u.stop := ⟨rfl, rfl, rfl, rfl⟩

section
variable (s : State)

theorem State.enterStalled_alike : s.source.Alike s.enterStalled.source := by
  rw [State.enterStalled_source]
  exact s.source.alike_stop

theorem State.starts_alike (c : Cause) : s.source.Alike (s.starts c).source := by
  have same : ((s.move .starting c).setStation { (s.move .starting c).station with lockTime := some 0 }).source = s.source := by
    simp
  rw [State.starts, ← same]
  unfold State.startUpLock
  split
  all_goals exact ⟨rfl, rfl, rfl, rfl⟩

theorem State.enterStarting_alike (c : Cause) : s.source.Alike (s.enterStarting c).source := by
  cases lost : s.source.lost with
  | false =>
    rw [State.enterStarting_of_sound lost]
    exact s.starts_alike c
  | true =>
    rw [State.enterStarting_of_lost lost]
    exact (s.starts_alike c).trans (State.enterStalled_alike _)

theorem State.actOnLoss_alike : s.source.Alike s.actOnLoss.source := by
  unfold State.actOnLoss
  split
  · split
    case h_1 =>
      rw [State.standbyLoss, State.loseClock_source]
      exact s.source.alike_stop
    case h_2 => exact s.source.alike_refl
    all_goals exact s.enterStalled_alike
  · exact s.source.alike_refl

theorem State.actOnRecovery_alike : s.source.Alike s.actOnRecovery.source := by
  unfold State.actOnRecovery
  split
  · exact s.enterStarting_alike _
  · exact s.source.alike_refl

theorem State.standbyRule_alike : s.source.Alike s.standbyRule.source := by
  unfold State.standbyRule
  repeat' split
  all_goals exact ⟨rfl, rfl, rfl, rfl⟩

theorem State.standbyRuleHere_alike : s.source.Alike s.standbyRuleHere.source := by
  unfold State.standbyRuleHere
  split
  · exact s.standbyRule_alike
  · exact s.source.alike_refl

theorem State.failover_sources : s.failover.source.xo = s.source.xo ∧ s.failover.source.ref = s.source.ref ∧
    s.failover.source.windowTimer = s.source.windowTimer ∧ s.failover.source.selected = s.source.choice := by
  rw [SourceUnit.choice]
  cases target : s.source.failoverTo with
  | none =>
    rw [State.failover_of_none target]
    exact ⟨rfl, rfl, rfl, rfl⟩
  | some x =>
    rw [State.failover_of_some target]
    exact s.select_sources x

theorem State.windowSettled_sources (u : State) : u.windowSettled.source.xo = u.source.windowEnd.xo ∧
    u.windowSettled.source.ref = u.source.windowEnd.ref ∧
    u.windowSettled.source.windowTimer = u.source.windowEnd.windowTimer ∧
    u.windowSettled.source.selected = u.source.windowEnd.choice := by
  obtain ⟨xo, ref, window, selected⟩ := u.judged.failover_sources
  have loss := u.judged.failover.actOnLoss_alike
  have recovery := u.judged.failover.actOnLoss.actOnRecovery_alike
  have rule := u.judged.failover.actOnLoss.actOnRecovery.standbyRuleHere_alike
  have whole : u.windowSettled = u.judged.failover.actOnLoss.actOnRecovery.standbyRuleHere := rfl
  rw [← whole] at rule
  have alike := (loss.trans recovery).trans rule
  rw [State.judged_source] at xo ref window selected
  exact ⟨alike.xo.trans xo, alike.ref.trans ref, alike.windowTimer.trans window, alike.selected.trans selected⟩

end

end Sys2Proof.Machine
end

section
/-! PROOFS. SUPERVISOR_WINDOW_END taken: what a failover, a source loss and a window in STANDBY leave (R118 to R122, R125). -/

namespace Sys2Proof.Machine

section
variable {u : State}

theorem State.judged_blocks : u.judged.link = u.link ∧ u.judged.discipline = u.discipline ∧ u.judged.peers = u.peers ∧
    u.judged.agreement = u.agreement ∧ u.judged.anchor = u.anchor ∧ u.judged.gens = u.gens ∧
    u.judged.timecode = u.timecode ∧ u.judged.config = u.config := by
  rw [State.judged_frame]
  exact ⟨rfl, rfl, rfl, rfl, rfl, rfl, rfl, rfl⟩

theorem State.judged_runs : u.judged.config.earlyActivation = true ∨ u.judged.clockValid = true ↔
    u.config.earlyActivation = true ∨ u.discipline.clock.isSome = true := by
  rw [State.judged_frame]
  rfl

theorem State.judged_select_runs : (u.judged.select u.source.selected.other).config.earlyActivation = true ∨
    (u.judged.select u.source.selected.other).clockValid = true ↔
      u.config.earlyActivation = true ∨ u.discipline.clock.isSome = true := by
  obtain ⟨-, discipline, -⟩ := u.judged.select_frame u.source.selected.other
  rw [← State.judged_runs, State.config, State.select_port, State.clockValid, discipline]
  rfl

/-! ### A failover (R120 to R122) -/

section
variable (unfit : (u.source.windowEnd.get u.source.selected).health = .unhealthy)
  (other : (u.source.windowEnd.get u.source.selected.other).enabled = true ∧
    (u.source.windowEnd.get u.source.selected.other).health = .healthy)
include unfit other

omit unfit in
/-- The source a failover selects is not UNHEALTHY. -/
theorem State.judged_select_healthy : ((u.judged.select u.source.selected.other).source.get
    (u.judged.select u.source.selected.other).source.selected).health ≠ .unhealthy := by
  obtain ⟨xo, ref, -, selected⟩ := u.judged.select_sources u.source.selected.other
  rw [selected, SourceUnit.get_congr xo ref, State.judged_source, other.2]
  exact Health.noConfusion

section
variable (live : u.station.state ≠ .stalled)
  (goes : u.station.state ≠ .standby ∨ (u.config.earlyActivation = true ∨ u.discipline.clock.isSome = true))
include live goes

/-- While the synthesizer runs a failover is the selection alone. -/
theorem State.windowSettled_selects (on : (u.judged.select u.source.selected.other).source.synth ≠ .off ∨
    u.station.state ≠ .standby) : u.windowSettled = u.judged.select u.source.selected.other := by
  by_cases standby : u.station.state = .standby
  · have runs := goes.resolve_left (not_not.mpr standby)
    rw [State.windowSettled_switched_standby unfit other standby]
    exact State.standbyRule_runs ((State.judged_select_runs).mpr runs)
      (.inl (on.resolve_right (not_not.mpr standby)))
  · exact State.windowSettled_switched unfit other standby live

omit goes in
/-- What a failover keeps. -/
theorem State.windowSettled_switched_keeps : u.windowSettled.station = u.station ∧ u.windowSettled.peers = u.peers ∧
    u.windowSettled.agreement = u.agreement ∧ u.windowSettled.anchor = u.anchor ∧ u.windowSettled.gens = u.gens ∧
    u.windowSettled.timecode = u.timecode ∧
    u.windowSettled.link = (u.judged.select u.source.selected.other).link ∧
    u.windowSettled.discipline = (u.judged.select u.source.selected.other).discipline := by
  obtain ⟨-, -, peers, agreement, anchor, gens, timecode, -⟩ := u.judged_blocks
  by_cases standby : u.station.state = .standby
  · rw [State.windowSettled_switched_standby unfit other standby]
    simp [State.judged_station, peers, agreement, anchor, gens, timecode]
  · rw [State.windowSettled_switched unfit other standby live]
    simp [State.judged_station, peers, agreement, anchor, gens, timecode]

/-- The synthesizer follows a failover by what it did (R121, R122; log 48). -/
theorem State.windowSettled_follows : let v := u.source.windowEnd; let x := u.source.selected
    let y := u.source.selected.other; let t := u.windowSettled
    (u.source.synth = .locked → u.source.lockSource = some x →
      t.source = { v with
        selected := y, synth := .relocking, lockSource := some y, lockCount := 0, unitTimer := some 0, coasting := true } ∧
      t.discipline = { u.discipline with coastMark := true } ∧
      t.link = { u.link with built := none, transmitter := none, buildOpen := false }) ∧
    (u.source.synth = .relocking → u.source.lockSource = some x →
      t.source = { v with selected := y, lockSource := some y, lockCount := 0, unitTimer := some 0 } ∧
      t.discipline = u.discipline ∧ t.link = u.link) ∧
    (u.source.synth = .locking → u.source.lockSource = some x →
      t.source = { v with
        selected := y, lockSource := some y, lockCount := 0, unitTimer := u.source.unitTimer.map fun _ => 0 } ∧
      t.discipline = u.discipline ∧ t.link = u.link) ∧
    (u.source.synth = .off → t.discipline = u.discipline ∧ t.link = u.link ∧
      (u.station.state ≠ .standby → t.source = { v with selected := y }) ∧
      (u.station.state = .standby → t.source = { v with
        selected := y, synth := .locking, lockSource := some y, lockCount := 0, unitTimer := some 0 })) := by
  intro v x y t
  have apart : u.source.selected ≠ u.source.selected.other := by cases u.source.selected <;> exact Source.noConfusion
  have source : u.judged.source = v := State.judged_source
  obtain ⟨link, discipline, -⟩ := u.judged_blocks
  have unlocked (lock : u.source.lockSource = some x) : u.judged.source.lockSource ≠ some y := by
    rw [source]
    exact fun same => apart (Option.some.inj (lock.symm.trans same))
  refine ⟨fun locked lock => ?_, fun relocking lock => ?_, fun locking lock => ?_, fun off => ?_⟩
  · have selects := State.select_of_locked (unlocked lock) (by rw [source]; exact locked)
    have keeps : t = _ := State.windowSettled_selects unfit other live goes (.inl (by rw [selects]; exact SynthState.noConfusion))
    rw [keeps, selects, source]
    exact ⟨rfl, by rw [← discipline]; rfl, by rw [← link]; rfl⟩
  · have selects := State.select_of_relocking (unlocked lock) (by rw [source]; exact relocking)
    have keeps : t = _ := State.windowSettled_selects unfit other live goes (.inl (by
      rw [selects, source]
      exact fun off => SynthState.noConfusion (relocking.symm.trans off)))
    rw [keeps, selects, source]
    exact ⟨rfl, discipline, link⟩
  · have selects := State.select_of_locking (unlocked lock) (by rw [source]; exact locking)
    have keeps : t = _ := State.windowSettled_selects unfit other live goes (.inl (by
      rw [selects, source]
      exact fun off => SynthState.noConfusion (locking.symm.trans off)))
    rw [keeps, selects, source]
    exact ⟨rfl, discipline, link⟩
  · have selects := State.select_of_off (s := u.judged) (by rw [source]; exact off) y
    obtain ⟨-, -, -, -, -, -, linked, disciplined⟩ := State.windowSettled_switched_keeps unfit other live
    refine ⟨disciplined.trans (by rw [selects]; exact discipline), linked.trans (by rw [selects]; exact link),
      fun active => ?_, fun standby => ?_⟩
    · have keeps : t = _ := State.windowSettled_selects unfit other live goes (.inr active)
      rw [keeps, selects, source]
      rfl
    · have runs := goes.resolve_left (not_not.mpr standby)
      have begins : t = _ := (State.windowSettled_switched_standby unfit other standby).trans
        (State.standbyRule_begins ((State.judged_select_runs).mpr runs)
          (by rw [selects, source]; exact off) (State.judged_select_healthy other))
      rw [begins, selects, source]
      rfl

end

end

end

end Sys2Proof.Machine
end

section
/-! PROOFS. SUPERVISOR_WINDOW_END: source loss, recovery and STANDBY, and the obligation (R41, R42, R62, R106, R118 to R120,
R125, R144, R157). -/

namespace Sys2Proof.Machine

section
variable {u : State}

theorem State.judged_enables : u.judged.notices.enables = u.notices.enables := State.raiseAll_enables ..

/-- A report past the judgement is one of the window end. -/
theorem State.judged_before {t : State} {n : Notice} (h : Reports u.judged t n) : Reports u t n :=
  h.before State.judged_enables

theorem State.frame_of_judged (h : u.windowSettled = u.judged) :
    u.windowSettled = (u.setSource u.source.windowEnd).setNotices u.windowSettled.notices := by
  rw [h]
  exact State.judged_frame

/-! ### Recovery (R42, R120) -/

theorem State.windowSettled_stays (stalled : u.station.state = .stalled)
    (unrepaired : (u.source.windowEnd.get u.source.selected).health ≠ .healthy)
    (kept : (u.source.windowEnd.get u.source.selected).health ≠ .unhealthy ∨ u.source.windowEnd.lost = true) :
    u.windowSettled = u.judged := by
  rcases kept with fit | lost
  · rw [State.judged_sound fit, State.actOnRecovery_unfit (by rw [State.judged_source]; exact unrepaired),
      State.standbyRuleHere_elsewhere (by rw [State.judged_station, stalled]; exact StationState.noConfusion)]
  · exact State.windowSettled_lost_stalled lost stalled

/-- A failover out of STALLED begins the start-up lock on the source it selects (R124). -/
theorem State.windowSettled_restarts (unfit : (u.source.windowEnd.get u.source.selected).health = .unhealthy)
    (other : (u.source.windowEnd.get u.source.selected.other).enabled = true ∧
      (u.source.windowEnd.get u.source.selected.other).health = .healthy)
    (stalled : u.station.state = .stalled) (off : u.source.synth = .off) :
    u.windowSettled.station.state = .starting ∧ Reports u u.windowSettled (.stateChanged .starting .recovered) ∧
    u.windowSettled.station.lockTime = some 0 ∧ u.windowSettled.source = { u.source.windowEnd with
      selected := u.source.selected.other, synth := .locking, lockSource := some u.source.selected.other, lockCount := 0
      unitTimer := none } := by
  let f := u.judged.select u.source.selected.other
  have starts : u.windowSettled = f.starts .recovered := State.windowSettled_switched_stalled unfit other stalled
  have selects : f = _ := State.select_of_off (s := u.judged) (by rw [State.judged_source]; exact off) u.source.selected.other
  obtain ⟨state, lockTime⟩ := f.starts_station .recovered
  have source := State.starts_source_of_off f .recovered (by rw [selects, State.judged_source]; exact off)
  rw [starts]
  refine ⟨state, State.judged_before ((f.starts_reports .recovered).before ?_), lockTime, source.trans ?_⟩
  · exact congrArg NoticeUnit.enables (State.select_notices ..)
  · rw [selects, State.judged_source]
    rfl

/-! ### A source loss (R41, R120, R125) -/

section
variable (lost : u.source.windowEnd.lost = true)
include lost

theorem State.windowSettled_stalls (active : u.station.state ≠ .standby) (live : u.station.state ≠ .stalled) :
    let t := u.windowSettled
    t.station.state = .stalled ∧ t.station.faultReason = .cause .source ∧ t.discipline.clock = none ∧
    Reports u t (.stateChanged .stalled .source) ∧ t.source.synth = .off ∧ t.link.mode = .off ∧
    t.discipline.rate = u.discipline.rate ∧ t.agreement = ⟨none, none, 0, 0⟩ ∧
    (t.link.built = none ∧ t.link.transmitter = none ∧ t.source.lockSource = none ∧ t.source.coasting = false ∧
      t.discipline.slew = none ∧ t.discipline.coastMark = false) ∧
    (t.anchor.valid = false ∧ t.anchor.offset = none ∧ t.anchor.change = none ∧
      (u.anchor.valid = true → Reports u t (.anchorChanged false .clock))) ∧
    (∀ i : Fin 32, t.peers.entries[i] =
      if (u.peers.entries[i]).state = .self then u.peers.entries[i] else PeerEntry.empty) ∧
    t.peers.hold = 0 ∧ t.timecode = { u.timecode with output := none } ∧
    (∀ i : Fin 4, (t.gens[i]).state = .off ∧ (t.gens[i]).next = none ∧ (t.gens[i]).pinHighUntil = none) := by
  intro t
  have stalls : t = u.judged.enterStalled := State.windowSettled_lost lost active live
  obtain ⟨-, discipline, peers, -, anchor, gens, timecode, -⟩ := u.judged_blocks
  obtain ⟨clock, slew, coast, rate⟩ := u.judged.enterStalled_discipline
  obtain ⟨mode, built, transmitter⟩ := u.judged.enterStalled_link
  obtain ⟨valid, offset, change⟩ := u.judged.enterStalled_anchor
  have source := u.judged.enterStalled_source
  have table := enterStalled_peers u.judged
  rw [stalls]
  refine ⟨u.judged.enterStalled_state, by rw [State.enterStalled_station], clock,
    State.judged_before u.judged.enterStalled_reports, by rw [source]; rfl, mode, by rw [rate, discipline],
    u.judged.enterStalled_agreement, ⟨built, transmitter, by rw [source]; rfl, by rw [source]; rfl, slew, coast⟩,
    ⟨valid, offset, change, fun was => State.judged_before (u.judged.enterStalled_reports_anchor (by rw [anchor, was]))⟩,
    fun i => ?_, by rw [table]; rfl, by rw [State.enterStalled_timecode, timecode], fun i => ?_⟩
  · simp only [table, peers]
    exact u.peers.clear_entry i
  · rw [State.enterStalled_gen]
    exact ⟨rfl, rfl, rfl⟩

/-- In STANDBY the synthesizer stops and the clock is lost. -/
theorem State.windowSettled_lost_here (standby : u.station.state = .standby) : let t := u.windowSettled
    t.station = u.station ∧ t.discipline.clock = none ∧
    t.source = { u.source.windowEnd with synth := .off, lockSource := none, unitTimer := none, coasting := false } ∧
    (u.discipline.clock.isSome = true → LosesClock u t) ∧
    (u.discipline.clock = none → t.gens = u.gens ∧ t.anchor = u.anchor) := by
  intro t
  have loses : t = u.judged.stopSynth.loseClock.standbyRule := State.windowSettled_lost_standby lost standby
  obtain ⟨-, discipline, -, -, anchor, gens, -, -⟩ := u.judged_blocks
  have here : u.judged.station.state = .standby := by rw [State.judged_station, standby]
  have loses' : u.judged.source.lost = true := by
    rw [State.judged_source]
    exact lost
  have source : u.judged.actOnLoss.standbyRule.source = u.judged.source.stop := State.settled_lost here loses'
  rw [State.actOnLoss_lost here loses'] at source
  rw [loses]
  refine ⟨by simp [State.judged_station], by rw [State.standbyRule_discipline, State.loseClock_clock],
    source.trans (by rw [State.judged_source]; rfl), fun valid => ?_, fun unset => ?_⟩
  · refine LosesClock.of (s := u.judged.stopSynth) ?_ (fun i => ?_) ?_ ?_ ?_ ?_ ?_ ?_
    · rw [State.clockValid, State.stopSynth_discipline, discipline]
      exact valid
    · simp only [State.stopSynth_gens, gens]
    · rw [State.stopSynth_anchor, anchor]
    · rw [State.stopSynth_notices, State.judged_enables]
    · rw [State.standbyRule_discipline]
    · rw [State.standbyRule_gens]
    · rw [State.standbyRule_anchor]
    · rw [State.standbyRule_notices]
  · have rests : u.judged.stopSynth.loseClock = u.judged.stopSynth :=
      State.loseClock_of_invalid (by rw [State.stopSynth_discipline, discipline, unset])
    rw [rests]
    exact ⟨by simp [gens], by simp [anchor]⟩

end

/-! ### STANDBY (R125) -/

theorem State.judged_setSource (w : SourceUnit) : u.judged.setSource w = (u.setSource w).setNotices u.judged.notices :=
  (congrArg (fun t => t.setSource w) State.judged_frame).trans rfl

theorem State.windowSettled_stops (unfit : (u.source.windowEnd.get u.source.selected).health = .unhealthy)
    (other : (u.source.windowEnd.get u.source.selected.other).enabled = true ∧
      (u.source.windowEnd.get u.source.selected.other).health = .healthy)
    (standby : u.station.state = .standby)
    (stays : ¬(u.config.earlyActivation = true ∨ u.discipline.clock.isSome = true)) :
    u.windowSettled.station = u.station ∧ u.windowSettled.source.synth = .off ∧ u.windowSettled.source.lockSource = none ∧
    u.windowSettled.source.coasting = false ∧ u.windowSettled.source.unitTimer = none := by
  rw [State.windowSettled_switched_standby unfit other standby,
    State.standbyRule_stops (mt State.judged_select_runs.mp stays)]
  exact ⟨by simp [State.judged_station], rfl, rfl, rfl, rfl⟩

theorem State.windowSettled_here (fit : (u.source.windowEnd.get u.source.selected).health ≠ .unhealthy)
    (standby : u.station.state = .standby) : let t := u.windowSettled; let v := u.source.windowEnd
    let runs := u.config.earlyActivation = true ∨ u.discipline.clock.isSome = true
    t = (u.setSource t.source).setNotices t.notices ∧
    (runs → u.source.synth = .off → t.source = { v with
      synth := .locking, lockSource := some u.source.selected, lockCount := 0, unitTimer := some 0 }) ∧
    (runs → u.source.synth ≠ .off → t.source = v) ∧
    (¬runs → t.source = { v with synth := .off, lockSource := none, unitTimer := none, coasting := false }) := by
  intro t v runs
  have rule : t = u.judged.standbyRule := State.windowSettled_sound_standby fit standby
  rw [rule]
  refine ⟨?_, fun go off => ?_, fun go on => ?_, fun stays => ?_⟩
  · rw [State.standbyRule_notices, ← State.judged_setSource]
    exact u.judged.standbyRule_eq
  · rw [State.standbyRule_begins (State.judged_runs.mpr go) (by rw [State.judged_source]; exact off)
      (by rw [State.judged_source]; exact fit), State.setSource_source, State.judged_source]
    rfl
  · rw [State.standbyRule_runs (State.judged_runs.mpr go) (.inl (by rw [State.judged_source]; exact on)), State.judged_source]
  · rw [State.standbyRule_stops (mt State.judged_runs.mp stays), State.stopSynth, State.setSource_source, State.judged_source]
    rfl

end

/-! ### The action a failure reports (R119; log 27) -/

theorem Source.other_ne (x : Source) : x.other ≠ x := by cases x <;> exact Source.noConfusion

section
variable {v : SourceUnit}

theorem SourceUnit.failAction_lost (lost : v.lost = true) : v.failAction v.selected = .lost := by
  have target := (Bool.and_eq_true_iff.mp lost).2
  rw [Option.isNone_iff_eq_none] at target
  simp [SourceUnit.failAction, target]

theorem SourceUnit.failAction_switched (fit : (v.get v.selected).health = .unhealthy ∧
    (v.get v.selected.other).enabled = true ∧ (v.get v.selected.other).health = .healthy) :
    v.failAction v.selected = .switched := by
  simp [SourceUnit.failAction, SourceUnit.failoverTo_of_fit fit]

theorem SourceUnit.failAction_unselected {x : Source} (other : x ≠ v.selected) : v.failAction x = .unselected := if_pos other

end

/-- Settles O53: the judgement of each source, then what follows it by the health of the selection and the station state. -/
theorem supervisorWindowJudges : Obligations.SupervisorWindowJudges := by
  intro dt s u v x y unfit lost fails restored runs
  refine ⟨fun early => ?early, rfl, rfl, fun z => ?judged, fun full => ?settled⟩
  case early =>
    rw [exec_supervisorWindowEnd]
    exact congrArg _ (if_neg fun k => early.not_ge (of_decide_eq_true k))
  case judged =>
    intro r q good
    have judged : q = r.windowEnd z := u.source.windowEnd_get z
    rw [judged]
    obtain ⟨enabled, count, whole⟩ := r.windowEnd_frame z
    refine ⟨enabled, count, whole, fun on all => ?_⟩
    obtain ⟨well, ill⟩ := SourceRecord.windowEnd_runs (x := z) on all
    obtain ⟨learning, healthy, unhealthy⟩ := SourceRecord.windowEnd_health (x := z) on all
    have counts := z.goodCount_iff r.count
    refine ⟨fun k => well (counts.mpr k), fun k => ill (Bool.eq_false_iff.mpr (mt counts.mp k)), learning, healthy, unhealthy⟩
  case settled =>
    have goes : exec (.supervisorWindowEnd dt) s = .next u.windowSettled := by
      rw [exec_supervisorWindowEnd]
      exact congrArg _ (if_pos (decide_eq_true full))
    have fit_of (bad : unfit) (held : ¬lost) : (v.get y).enabled = true ∧ (v.get y).health = .healthy := by
      by_contra other
      refine held ⟨bad, ?_⟩
      rwa [not_and_or, Bool.not_eq_true] at other
    have loss (h : lost) : v.lost = true := SourceUnit.lost_iff.mpr h
    obtain ⟨xo, ref, window, selected⟩ := u.windowSettled_sources
    refine ⟨u.windowSettled, goes, xo, ref, window,
      fun bad held => selected.trans (SourceUnit.choice_of_fit ⟨bad, fit_of bad held⟩),
      fun kept => selected.trans (SourceUnit.choice_of_unfit ?kept),
      fun good active live => State.frame_of_judged (State.windowSettled_sound good active live),
      fun bad held live goes' => ?switched,
      fun bad held standby stays => State.windowSettled_stops bad (fit_of bad held) standby stays,
      fun bad held stalled off => State.windowSettled_restarts bad (fit_of bad held) stalled off,
      fun h active live => State.windowSettled_stalls (loss h) active live,
      fun h standby => State.windowSettled_lost_here (loss h) standby,
      fun good standby => State.windowSettled_here good standby,
      fun stalled kept unrepaired =>
        State.frame_of_judged (State.windowSettled_stays stalled unrepaired (kept.imp_right loss)),
      fun stalled healthy => ?recovers, ?failsLost, ?failsHeld, ?failsOther, ?restoredSelected, ?restoredOther⟩
    case kept =>
      rintro ⟨bad, other⟩
      rcases kept with good | ⟨-, off | ill⟩
      · exact good bad
      · exact Bool.false_ne_true (off.symm.trans other.1)
      · exact ill other.2
    case switched =>
      obtain ⟨station, peers, agreement, anchor, gens, timecode, -⟩ :=
        State.windowSettled_switched_keeps bad (fit_of bad held) live
      exact ⟨station, peers, agreement, anchor, gens, timecode,
        State.windowSettled_follows bad (fit_of bad held) live goes'⟩
    case recovers =>
      rw [State.windowSettled_recovers stalled healthy]
      exact ⟨(u.judged.starts_station .recovered).1, State.judged_before (u.judged.starts_reports .recovered)⟩
    case failsLost =>
      intro failed h
      have said := State.judged_reports_selected (healthNotices_failed failed)
      have action : u.source.windowEnd.failAction u.source.selected = .lost := SourceUnit.failAction_lost (loss h)
      rw [action] at said
      exact (State.windowSettled_silent (k := 2) (by decide) (by decide)).after said
    case failsHeld =>
      intro failed held
      have said := State.judged_reports_selected (healthNotices_failed failed)
      have action : u.source.windowEnd.failAction u.source.selected = .switched :=
        SourceUnit.failAction_switched ⟨failed.2, fit_of failed.2 held⟩
      rw [action] at said
      exact (State.windowSettled_silent (k := 2) (by decide) (by decide)).after said
    case failsOther =>
      intro failed sound
      have said := State.judged_reports_other (healthNotices_failed failed) (healthNotices_unfailed sound)
      have action : u.source.windowEnd.failAction u.source.selected.other = .unselected :=
        SourceUnit.failAction_unselected (Source.other_ne x)
      rw [action] at said
      exact (State.windowSettled_silent (k := 2) (by decide) (by decide)).after said
    case restoredSelected =>
      intro back
      have said := State.judged_reports_selected (healthNotices_restored back)
      rw [decide_eq_true (show u.source.selected = u.source.windowEnd.selected from rfl)] at said
      exact (State.windowSettled_silent (k := 3) (by decide) (by decide)).after said
    case restoredOther =>
      intro back down
      have said := State.judged_reports_other (healthNotices_restored back) (healthNotices_unrestored down)
      rw [decide_eq_false (show u.source.selected.other ≠ u.source.windowEnd.selected from Source.other_ne x)] at said
      exact (State.windowSettled_silent (k := 3) (by decide) (by decide)).after said

end Sys2Proof.Machine
end

section
/-! PROOFS. The end of a lock (R24, R117, R123 to R125, R129, R144; log 2, 23, 39, 51, 53). -/

namespace Sys2Proof.Machine

/-! ### SYNTHESIZER_LOCKED (R24, R117) -/

theorem exec_synthesizerLocked (dt : Elapsed) (s : State) : exec (.synthesizerLocked dt) s =
    .next (if (s.elapse dt).lockReached then (s.elapse dt).lock else s.elapse dt) := rfl

section
variable {u : State}

theorem SourceUnit.locking_iff (v : SourceUnit) : v.locking = true ↔ v.synth = .locking ∨ v.synth = .relocking := by
  cases h : v.synth <;> simp [SourceUnit.locking, h]

theorem State.lockReached_iff : u.lockReached = true ↔
    (u.source.synth = .locking ∨ u.source.synth = .relocking) ∧ 2048 ≤ u.source.lockCount := by
  rw [State.lockReached, Bool.and_eq_true, decide_eq_true_eq, SourceUnit.locking_iff]

theorem State.lock_elsewhere (h : u.station.state ≠ .starting) : u.lock = u.completeLock := if_neg h

theorem State.lock_starting (h : u.station.state = .starting) : u.lock = u.completeLock.enterListen .locked := if_pos h

/-! ### NO_LOCK (R24; log 23, 39) -/

theorem State.SilentOn.enterStandby {s : State} {k : Fin 27} (c : Cause) (moved : k ≠ 1) (dropped : k ≠ 17) :
    State.SilentOn k s (s.enterStandby c) := by
  have before : State.SilentOn k s ((s.move .standby c).withdrawGens) :=
    (State.SilentOn.move s .standby c moved).trans (.of_notices rfl)
  have rule : (s.enterStandby c).notices = (s.beforeStandbyRule c).notices := by
    rw [State.enterStandby_eq, State.standbyRule_notices]
  refine State.SilentOn.trans (t := s.beforeStandbyRule c) ?_ (.of_notices rule)
  unfold State.beforeStandbyRule State.abandonLock
  split
  · split
    · exact before.trans ((State.SilentOn.loseClock dropped).since (State.stopSynth_notices _))
    · exact before.trans (.of_notices (State.stopSynth_notices _))
  · exact before

/-- A notice said before the clock is lost matters nothing to the loss. -/
theorem LosesClock.before_raise {s t : State} {n : Notice} (h : LosesClock (s.raise n) t) : LosesClock s t := by
  obtain ⟨clock, gens, anchor, reports⟩ := h
  simp only [State.raise_gens, State.raise_anchor] at gens anchor reports
  exact ⟨clock, gens, anchor, fun valid => (reports valid).before (raise_enables ..)⟩

theorem exec_noLock (dt : Elapsed) (s : State) : exec (.noLock dt) s =
    .next (if (s.elapse dt).lockTimeOver then (s.elapse dt).failStart else s.elapse dt) := rfl

theorem State.lockTimeOver_iff : u.lockTimeOver = true ↔
    ∃ n, u.station.lockTime = some n ∧ u.station.state = .starting ∧ 160000 ≤ n := by
  cases h : u.station.lockTime <;> simp [State.lockTimeOver, h]

section
variable {x : Source} (starting : u.station.state = .starting) (lock : u.source.lockSource = some x)
include lock

theorem State.failStart_eq : u.failStart = (u.raise (.lockFailed x)).enterStandby .noLock := by
  rw [State.failStart, lock]
  rfl

theorem State.failStart_reports : Reports u u.failStart (.stateChanged .standby .noLock) ∧
    Reports u u.failStart (.lockFailed x) := by
  rw [State.failStart_eq lock]
  refine ⟨(State.enterStandby_reports (u.raise (.lockFailed x)) .noLock).before (raise_enables ..), ?_⟩
  exact (State.SilentOn.enterStandby (k := 4) .noLock (by decide) (by decide)).after (Reports.raise u (.lockFailed x))

include starting

omit lock in
theorem State.failStart_abandons : (u.raise (.lockFailed x)).abandonsLock .noLock = true := by
  rw [State.abandonsLock, State.raise_station, starting]

omit lock in
/-- The lock given up, before R125 decides (R124). -/
theorem State.failStart_stops : ((u.raise (.lockFailed x)).beforeStandbyRule .noLock).source = u.source.stop := by
  rw [State.beforeStandbyRule_source, if_pos (State.failStart_abandons starting), State.raise_source]

omit lock in
theorem State.failStart_runs : (u.raise (.lockFailed x)).config.earlyActivation = true ∨
    ((u.raise (.lockFailed x)).beforeStandbyRule .noLock).clockValid = true ↔
      u.config.earlyActivation = true ∨ (u.discipline.clock.isSome = true ∧ u.source.synth ≠ .relocking) := by
  rw [State.beforeStandbyRule_clockValid, State.failStart_abandons starting, State.raise_discipline, State.raise_source, State.config,
    State.raise_port, State.config]
  simp

theorem State.failStart_source :
    let kept := u.discipline.clock.isSome = true ∧ u.source.synth ≠ .relocking
    let runs := u.config.earlyActivation = true ∨ kept
    let fit := (u.source.get u.source.selected).health ≠ .unhealthy
    (runs → fit → u.failStart.source = { u.source.stop with
      synth := .locking, lockSource := some u.source.selected, lockCount := 0, unitTimer := some 0 }) ∧
    (¬runs ∨ ¬fit → u.failStart.source = u.source.stop) := by
  intro kept runs fit
  have stops := State.failStart_stops (x := x) starting
  have decides := State.failStart_runs (x := x) starting
  rw [State.failStart_eq lock]
  refine ⟨fun go good => ?_, fun rests => ?_⟩
  · have begins := State.enterStandby_source_begins (s := u.raise (.lockFailed x)) (c := .noLock) (decides.mpr go)
      (by rw [stops]; rfl) (by rw [State.raise_source]; exact good)
    rw [begins, stops, State.raise_source]
  · by_cases go : runs
    · have bad : (u.source.get u.source.selected).health = .unhealthy :=
        not_not.mp (rests.resolve_left (not_not.mpr go))
      rw [State.enterStandby_source_runs (decides.mpr go) (.inr (by rw [State.raise_source]; exact bad)), stops]
    · rw [State.enterStandby_source_stops (mt decides.mp go), State.raise_source]

theorem State.failStart_clock :
    (u.source.synth = .relocking → u.discipline.clock.isSome = true → LosesClock u u.failStart) ∧
    (u.source.synth ≠ .relocking → u.failStart.discipline = u.discipline ∧ u.failStart.anchor = u.anchor) := by
  rw [State.failStart_eq lock]
  refine ⟨fun relocking valid => ?_, fun other => ?_⟩
  · exact (State.enterStandby_losesClock (s := u.raise (.lockFailed x)) (State.failStart_abandons starting)
      (by rw [State.raise_source]; exact relocking) (by rw [State.raise_discipline]; exact valid)).before_raise
  · have keeps := State.enterStandby_keepsClock (s := u.raise (.lockFailed x)) (c := .noLock)
      (by rw [State.raise_source]; exact other)
    rwa [State.raise_discipline, State.raise_anchor] at keeps

end

end

end Sys2Proof.Machine
end

section
/-! PROOFS. LOCK_TIMEOUT, stage by stage, and the obligation on the end of a lock (R42, R119, R120, R123, R125, R129; log 51). -/

namespace Sys2Proof.Machine

/-! ### The lock source marked UNHEALTHY (R123 stage 1) -/

section
variable {u : SourceUnit} {x : Source}

/-- The unit with the source of a timed-out lock marked. -/
def SourceUnit.marked (u : SourceUnit) (x : Source) : SourceUnit := u.put x (u.get x).failLock

theorem SourceUnit.marked_get : (u.marked x).get x = (u.get x).failLock := by cases x <;> rfl

theorem SourceUnit.marked_get_other : (u.marked x).get x.other = u.get x.other := by cases x <;> rfl

theorem SourceUnit.marked_selected : (u.marked x).selected = u.selected := by cases x <;> rfl

theorem SourceUnit.marked_coasting : (u.marked x).coasting = u.coasting := by cases x <;> rfl

/-- The failover rule finds the other source where it is fit (R120). -/
theorem SourceUnit.marked_failoverTo (selected : u.selected = x) :
    ((u.get x.other).enabled = true → (u.get x.other).health = .healthy → (u.marked x).failoverTo = some x.other) ∧
    ((u.get x.other).enabled = false ∨ (u.get x.other).health ≠ .healthy → (u.marked x).failoverTo = none) := by
  have chosen : (u.marked x).selected = x := SourceUnit.marked_selected.trans selected
  refine ⟨fun enabled healthy => ?_, fun unfit => ?_⟩
  · have target := SourceUnit.failoverTo_of_fit (u := u.marked x)
    rw [chosen, SourceUnit.marked_get, SourceUnit.marked_get_other] at target
    exact target ⟨rfl, enabled, healthy⟩
  · rw [SourceUnit.failoverTo_eq_none_iff, chosen, SourceUnit.marked_get_other]
    exact fun _ => unfit

end

section
variable {u : State} {x : Source}

theorem State.markFailed_frame :
    u.markFailed x = (u.setSource (u.source.marked x)).setNotices (u.markFailed x).notices := by
  unfold State.markFailed
  dsimp only
  split
  · rfl
  · rfl

theorem State.markFailed_enables : (u.markFailed x).notices.enables = u.notices.enables := by
  unfold State.markFailed
  dsimp only
  split
  · rfl
  · rw [raise_enables]; rfl

theorem State.markFailed_reports (sound : (u.source.get x).health ≠ .unhealthy) :
    Reports u (u.markFailed x) (.sourceFailed x .lock ((u.source.marked x).failAction x)) := by
  unfold State.markFailed
  dsimp only
  rw [if_neg sound]
  exact (Reports.raise _ _).before rfl

/-! ### The synthesizer stopped and the timeout reported (R123 stages 2 and 3) -/

/-- The station once the timeout has been reported, before the failover rule. -/
def State.timeoutTold (u : State) (x : Source) : State := (u.markFailed x).stopSynth.reportTimeout

theorem State.timeoutTold_standby (standby : u.station.state = .standby) :
    u.timeoutTold x = (u.markFailed x).stopSynth.loseClock := by
  refine if_pos ?_
  rw [State.markFailed_frame]
  exact standby

theorem State.timeoutTold_elsewhere (active : u.station.state ≠ .standby) :
    u.timeoutTold x = (u.markFailed x).stopSynth.enterStalled := by
  refine if_neg ?_
  rw [State.markFailed_frame]
  exact active

theorem State.timeoutTold_source : (u.timeoutTold x).source = (u.source.marked x).stop := by
  have stopped : (u.markFailed x).stopSynth.source = (u.source.marked x).stop := by
    rw [State.markFailed_frame]
    rfl
  by_cases standby : u.station.state = .standby
  · rw [State.timeoutTold_standby standby, State.loseClock_source, stopped]
  · rw [State.timeoutTold_elsewhere standby, State.enterStalled_source, stopped, SourceUnit.stop_stop]

theorem State.timeoutTold_clock : (u.timeoutTold x).discipline.clock = none := by
  by_cases standby : u.station.state = .standby
  · rw [State.timeoutTold_standby standby, State.loseClock_clock]
  · rw [State.timeoutTold_elsewhere standby, (State.enterStalled_discipline _).1]

theorem State.timeoutTold_silent {k : Fin 27} (moved : k ≠ 1) (dropped : k ≠ 17) :
    State.SilentOn k (u.markFailed x) (u.timeoutTold x) := by
  have stopped : (u.markFailed x).stopSynth.notices = (u.markFailed x).notices := State.stopSynth_notices _
  by_cases standby : u.station.state = .standby
  · rw [State.timeoutTold_standby standby]
    exact (State.SilentOn.loseClock dropped).since stopped
  · rw [State.timeoutTold_elsewhere standby]
    exact (State.SilentOn.enterStalled moved dropped).since stopped

/-! ### The failover rule (R123 stage 4) -/

/-- The selection the rule leaves, the synthesizer stopped. -/
def State.timeoutFailed (u : State) (x : Source) : State :=
  (u.timeoutTold x).setSource { (u.source.marked x).stop with selected := (u.source.marked x).choice }

theorem State.lockTimeout_eq : u.lockTimeout x = (u.timeoutFailed x).actOnRecovery.standbyRuleHere := by
  have source := State.timeoutTold_source (u := u) (x := x)
  have fails : (u.timeoutTold x).failover = u.timeoutFailed x := by
    rw [State.failover_of_off (by rw [source]; rfl), source]
    rfl
  rw [State.lockTimeout, ← fails]
  rfl

theorem State.timeoutFailed_get (y : Source) : (u.timeoutFailed x).source.get y = (u.source.marked x).get y := by
  cases y <;> rfl

theorem State.lockTimeout_silent {k : Fin 27} (moved : k ≠ 1) (dropped : k ≠ 17) :
    State.SilentOn k (u.markFailed x) (u.lockTimeout x) := by
  have rule (s : State) : s.standbyRuleHere.notices = s.notices := by
    unfold State.standbyRuleHere
    split
    · rw [State.standbyRule_notices]
    · rfl
  have told := State.timeoutTold_silent (u := u) (x := x) moved dropped
  rw [State.lockTimeout_eq]
  have failed : State.SilentOn k (u.markFailed x) (u.timeoutFailed x) := told.trans (.of_notices rfl)
  exact (failed.trans (.actOnRecovery moved dropped)).trans (.of_notices (rule _))

/-- The sources after a timeout are those marked. -/
theorem State.lockTimeout_get (y : Source) : (u.lockTimeout x).source.get y = (u.source.marked x).get y := by
  have recovery := (u.timeoutFailed x).actOnRecovery_alike
  have rule := (u.timeoutFailed x).actOnRecovery.standbyRuleHere_alike
  rw [← State.lockTimeout_eq] at rule
  have alike := recovery.trans rule
  rw [SourceUnit.get_congr alike.xo alike.ref, State.timeoutFailed_get]

/-! ### Outside STANDBY (R41, R42) -/

section
variable (active : u.station.state ≠ .standby)
include active

theorem State.timeoutFailed_station : (u.timeoutFailed x).station = (u.markFailed x).stopSynth.enterStalled.station := by
  rw [State.timeoutFailed, State.setSource_station, State.timeoutTold_elsewhere active]

theorem State.lockTimeout_stalls (unfit : (u.source.marked x).failoverTo = none) (selected : u.source.selected = x) :
    u.lockTimeout x = u.timeoutFailed x := by
  have state : (u.timeoutFailed x).station.state = .stalled := by
    rw [State.timeoutFailed_station active, State.enterStalled_state]
  have chosen : (u.timeoutFailed x).source.selected = x := by
    change (u.source.marked x).choice = x
    rw [SourceUnit.choice, unfit]
    exact SourceUnit.marked_selected.trans selected
  rw [State.lockTimeout_eq, State.actOnRecovery_unfit,
    State.standbyRuleHere_elsewhere (by rw [state]; exact StationState.noConfusion)]
  rw [chosen, State.timeoutFailed_get, SourceUnit.marked_get]
  exact Health.noConfusion

theorem State.lockTimeout_recovers (fit : (u.source.marked x).failoverTo = some x.other)
    (healthy : (u.source.get x.other).health = .healthy) : u.lockTimeout x = (u.timeoutFailed x).starts .recovered ∧
      (u.timeoutFailed x).source.selected = x.other := by
  have chosen : (u.timeoutFailed x).source.selected = x.other := by
    change (u.source.marked x).choice = x.other
    rw [SourceUnit.choice, fit]
    rfl
  have sound : ((u.timeoutFailed x).source.get (u.timeoutFailed x).source.selected).health = .healthy := by
    rw [chosen, State.timeoutFailed_get, SourceUnit.marked_get_other, healthy]
  refine ⟨?_, chosen⟩
  rw [State.lockTimeout_eq, State.actOnRecovery_recovers _ sound,
    State.standbyRuleHere_starting (SourceUnit.lost_of_fit (by rw [sound]; exact Health.noConfusion))]
  rw [State.timeoutFailed_station active, State.enterStalled_state]

end

/-! ### In STANDBY (R125, R144) -/

section
variable (standby : u.station.state = .standby)
include standby

theorem State.lockTimeout_here : u.lockTimeout x = (u.timeoutFailed x).standbyRule := by
  have state : (u.timeoutFailed x).station.state = .standby := by
    rw [State.timeoutFailed, State.setSource_station, State.timeoutTold_standby standby, State.loseClock_station,
      State.stopSynth_station, State.markFailed_frame]
    exact standby
  rw [State.lockTimeout_eq, State.actOnRecovery_elsewhere (by rw [state]; exact StationState.noConfusion),
    State.standbyRuleHere_standby state]

theorem State.lockTimeout_blocks : (u.lockTimeout x).station = u.station ∧
    (u.discipline.clock.isSome = true → LosesClock u (u.lockTimeout x)) ∧
    (u.discipline.clock = none → (u.lockTimeout x).gens = u.gens ∧ (u.lockTimeout x).anchor = u.anchor) := by
  have told : u.timeoutTold x = (u.markFailed x).stopSynth.loseClock := State.timeoutTold_standby standby
  have frame := State.markFailed_frame (u := u) (x := x)
  have enables : (u.markFailed x).notices.enables = u.notices.enables := State.markFailed_enables
  have discipline : (u.markFailed x).discipline = u.discipline := by rw [frame]; rfl
  have gens : (u.markFailed x).gens = u.gens := by rw [frame]; rfl
  have anchor : (u.markFailed x).anchor = u.anchor := by rw [frame]; rfl
  have station : (u.markFailed x).station = u.station := by rw [frame]; rfl
  rw [State.lockTimeout_here standby, State.timeoutFailed, told]
  refine ⟨by simp [station], fun valid => ?_, fun unset => ?_⟩
  · refine LosesClock.of (s := (u.markFailed x).stopSynth) ?_ (fun i => ?_) ?_ ?_ ?_ ?_ ?_ ?_
    · rw [State.clockValid, State.stopSynth_discipline, discipline]
      exact valid
    · simp only [State.stopSynth_gens, gens]
    · rw [State.stopSynth_anchor, anchor]
    · rw [State.stopSynth_notices, enables]
    · rw [State.standbyRule_discipline, State.setSource_discipline]
    · rw [State.standbyRule_gens, State.setSource_gens]
    · rw [State.standbyRule_anchor, State.setSource_anchor]
    · rw [State.standbyRule_notices, State.setSource_notices]
  · have rests : (u.markFailed x).stopSynth.loseClock = (u.markFailed x).stopSynth :=
      State.loseClock_of_invalid (by rw [State.stopSynth_discipline, discipline, unset])
    rw [rests]
    exact ⟨by simp [gens], by simp [anchor]⟩

omit standby in
theorem State.timeoutFailed_clockValid : (u.timeoutFailed x).clockValid = false := by
  have clock : (u.timeoutFailed x).discipline.clock = none := State.timeoutTold_clock
  rw [State.clockValid, clock]
  rfl

theorem State.timeoutFailed_config : (u.timeoutFailed x).config = u.config := by
  rw [State.config, State.timeoutFailed, State.setSource_port, State.timeoutTold_standby standby, State.loseClock_port,
    State.stopSynth_port, State.markFailed_frame]
  rfl

/-- R125 after a timeout: the clock is lost, so early activation alone begins a lock, and only on a fit selection. -/
theorem State.lockTimeout_rule (y : Source) (chosen : (u.source.marked x).choice = y) :
    (u.config.earlyActivation = true → ((u.source.marked x).get y).health ≠ .unhealthy →
      (u.lockTimeout x).source = { (u.source.marked x).stop with selected := y }.lockOn .locking (some 0)) ∧
    (u.config.earlyActivation = false ∨ ((u.source.marked x).get y).health = .unhealthy →
      (u.lockTimeout x).source = { (u.source.marked x).stop with selected := y }) := by
  have source : (u.timeoutFailed x).source = { (u.source.marked x).stop with selected := y } := by
    rw [← chosen]
    rfl
  have health : ((u.timeoutFailed x).source.get (u.timeoutFailed x).source.selected).health =
      ((u.source.marked x).get y).health := by
    rw [State.timeoutFailed_get, source]
  have invalid := State.timeoutFailed_clockValid (u := u) (x := x)
  have config := State.timeoutFailed_config (x := x) standby
  rw [State.lockTimeout_here standby, ← source]
  refine ⟨fun early fit => ?_, fun stays => ?_⟩
  · rw [State.standbyRule_begins (.inl (by rw [config, early])) (by rw [source]; rfl) (by rwa [health])]
    rfl
  · by_cases early : u.config.earlyActivation = true
    · have bad := stays.resolve_left fun off => Bool.false_ne_true (off.symm.trans early)
      rw [State.standbyRule_runs (.inl (by rw [config, early])) (.inr (by rw [health, bad]))]
    · rw [State.standbyRule_stops (by rw [config, invalid]; exact not_or.mpr ⟨early, Bool.false_ne_true⟩), State.stopSynth,
        State.setSource_source, source]
      rfl

end

end

end Sys2Proof.Machine
end

section
/-! PROOFS. The end of a lock: the obligation (R24, R117, R123 to R125, R129). -/

namespace Sys2Proof.Machine

theorem exec_lockTimeout (dt : Elapsed) (s : State) : exec (.lockTimeout dt) s =
    .next (match (s.elapse dt).timedOut with
      | some x => (s.elapse dt).lockTimeout x
      | none => s.elapse dt) := rfl

section
variable {dt : Elapsed} {s : State}

theorem exec_lockTimeout_none (h : (s.elapse dt).timedOut = none) : exec (.lockTimeout dt) s = .next (s.elapse dt) := by
  rw [exec_lockTimeout, h]

theorem exec_lockTimeout_some {x : Source} (h : (s.elapse dt).timedOut = some x) :
    exec (.lockTimeout dt) s = .next ((s.elapse dt).lockTimeout x) := by
  rw [exec_lockTimeout, h]

end

section
variable {u : State} {n : Nat}

theorem State.timedOut_untimed (h : u.source.unitTimer = none) : u.timedOut = none := by
  simp only [State.timedOut, h]

theorem State.timedOut_unlocking (h : u.source.synth = .off ∨ u.source.synth = .locked) : u.timedOut = none := by
  have idle : u.source.locking = false := by rcases h with h | h <;> simp only [SourceUnit.locking, h]
  unfold State.timedOut
  split
  · simp [idle]
  · rfl

section
variable (timer : u.source.unitTimer = some n)
include timer

theorem State.timedOut_early (early : n < 160000) : u.timedOut = none := by
  simp only [State.timedOut, timer]
  exact if_neg fun k => early.not_ge (of_decide_eq_true (Bool.and_eq_true_iff.mp k).2)

theorem State.timedOut_late (late : 160000 ≤ n) (locks : u.source.synth = .locking ∨ u.source.synth = .relocking) :
    u.timedOut = u.source.lockSource := by
  simp only [State.timedOut, timer]
  exact if_pos (Bool.and_eq_true_iff.mpr ⟨(SourceUnit.locking_iff _).mpr locks, decide_eq_true late⟩)

end

/-! ### The timeout in its three places (R41, R42, R125) -/

section
variable {x : Source}

/-- What every timeout leaves: the source marked, the other as it was, the clock lost and the coasting flag cleared. -/
theorem State.lockTimeout_marks : ((u.lockTimeout x).source.get x).health = .unhealthy ∧
    ((u.lockTimeout x).source.get x).bad = 2 ∧ ((u.lockTimeout x).source.get x).good = 0 ∧
    (u.lockTimeout x).source.get x.other = u.source.get x.other := by
  rw [State.lockTimeout_get, State.lockTimeout_get, SourceUnit.marked_get, SourceUnit.marked_get_other]
  exact ⟨rfl, rfl, rfl, rfl⟩

/-- SOURCE_FAILED stands after a timeout (R119). -/
theorem State.lockTimeout_reports {action : FailAction} (sound : (u.source.get x).health ≠ .unhealthy)
    (acts : (u.source.marked x).failAction x = action) : Reports u (u.lockTimeout x) (.sourceFailed x .lock action) := by
  rw [← acts]
  exact (State.lockTimeout_silent (k := 2) (by decide) (by decide)).after (State.markFailed_reports sound)

theorem SourceUnit.failAction_marked (selected : u.source.selected = x) :
    ((u.source.marked x).failoverTo = none → (u.source.marked x).failAction x = .lost) ∧
    (∀ y, (u.source.marked x).failoverTo = some y → (u.source.marked x).failAction x = .switched) := by
  have chosen : x = (u.source.marked x).selected := (SourceUnit.marked_selected.trans selected).symm
  refine ⟨fun unfit => ?_, fun y fit => ?_⟩
  · rw [SourceUnit.failAction, if_neg (not_not.mpr chosen), unfit]
    rfl
  · rw [SourceUnit.failAction, if_neg (not_not.mpr chosen), fit]
    rfl

/-- Outside STANDBY with no fit source the station stalls. -/
theorem State.lockTimeout_unfit (active : u.station.state ≠ .standby) (selected : u.source.selected = x)
    (unfit : (u.source.marked x).failoverTo = none) : let t := u.lockTimeout x
    t.station.state = .stalled ∧ t.station.faultReason = .cause .source ∧ t.source.synth = .off ∧
    t.source.lockSource = none ∧ t.source.coasting = false ∧ t.discipline.clock = none := by
  intro t
  have stalls : t = u.timeoutFailed x := State.lockTimeout_stalls active unfit selected
  have station := State.timeoutFailed_station (x := x) active
  rw [State.enterStalled_station] at station
  rw [stalls]
  exact ⟨by rw [station], by rw [station], rfl, rfl, rfl, State.timeoutTold_clock⟩

/-- Outside STANDBY with a fit source the station starts again on it (R42, R124). -/
theorem State.lockTimeout_fit (active : u.station.state ≠ .standby) (fit : (u.source.marked x).failoverTo = some x.other)
    (healthy : (u.source.get x.other).health = .healthy) : let t := u.lockTimeout x
    t.station.state = .starting ∧ t.source.selected = x.other ∧ t.source.synth = .locking ∧
    t.source.lockSource = some x.other ∧ Reports u t (.stateChanged .starting .recovered) ∧
    t.source.coasting = false ∧ t.discipline.clock = none := by
  intro t
  let f := u.timeoutFailed x
  obtain ⟨recovers, chosen⟩ : t = f.starts .recovered ∧ f.source.selected = x.other :=
    State.lockTimeout_recovers active fit healthy
  have source := State.starts_source_of_off f .recovered rfl
  have enables : f.notices.enables = u.notices.enables :=
    (State.timeoutTold_silent (u := u) (x := x) (k := 2) (by decide) (by decide)).enables.trans State.markFailed_enables
  rw [recovers]
  refine ⟨(f.starts_station .recovered).1, ?_, by rw [source], by rw [source, chosen],
    (f.starts_reports .recovered).before enables, by rw [source]; rfl, ?_⟩
  · rw [source]
    exact chosen
  · rw [(f.starts_frame .recovered).1]
    exact State.timeoutTold_clock

/-- In STANDBY the clock is lost and R125 decides (R144). -/
theorem State.lockTimeout_clears (standby : u.station.state = .standby) :
    (u.lockTimeout x).source.coasting = false ∧ (u.lockTimeout x).discipline.clock = none := by
  rw [State.lockTimeout_here standby, State.standbyRule_discipline]
  refine ⟨?_, State.timeoutTold_clock⟩
  unfold State.standbyRule
  repeat' split
  all_goals rfl

end

end

/-- Settles O54. -/
theorem locksEnd : Obligations.LocksEnd := by
  intro dt s u locked
  refine ⟨fun short => ?short, fun locks full => ⟨fun elsewhere => ?locked, fun starting => ?starts⟩, fun idle => ?idle,
    fun n lockTime early => ?early, fun n x starting lockTime late lock => ?fails, fun untimed => ?untimed,
    fun n timer early => exec_lockTimeout_none (State.timedOut_early timer early),
    fun n timer late locks lock => ?timeout⟩
  case short =>
    rw [exec_synthesizerLocked]
    refine congrArg _ (if_neg fun reached => ?_)
    obtain ⟨locks, full⟩ := State.lockReached_iff.mp reached
    rcases short with few | off | done
    · exact few.not_ge full
    · exact locks.elim (fun k => SynthState.noConfusion (k.symm.trans off)) fun k => SynthState.noConfusion (k.symm.trans off)
    · exact locks.elim (fun k => SynthState.noConfusion (k.symm.trans done)) fun k => SynthState.noConfusion (k.symm.trans done)
  case locked =>
    rw [exec_synthesizerLocked, if_pos (State.lockReached_iff.mpr ⟨locks, full⟩), State.lock_elsewhere elsewhere]
    rfl
  case starts =>
    refine ⟨u.completeLock.enterListen .locked, ?_, ?_⟩
    · rw [exec_synthesizerLocked, if_pos (State.lockReached_iff.mpr ⟨locks, full⟩), State.lock_starting starting]
    · have station := State.enterListen_station .locked u.completeLock
      exact ⟨by simp [State.completeLock, locked], by rw [station], (State.enterListen_reports .locked u.completeLock).before rfl,
        by rw [station], by rw [station]; rfl, State.enterListen_mode .locked u.completeLock, by simp [State.completeLock],
        by simp [State.completeLock], by simp [State.completeLock], by simp [State.completeLock]⟩
  case idle =>
    rw [exec_noLock]
    refine congrArg _ (if_neg fun over' => ?_)
    obtain ⟨n, lockTime, starting, -⟩ := State.lockTimeOver_iff.mp over'
    rcases idle with elsewhere | unset
    · exact elsewhere starting
    · exact Option.some_ne_none n (lockTime.symm.trans unset)
  case early =>
    rw [exec_noLock]
    refine congrArg _ (if_neg fun over' => ?_)
    obtain ⟨m, lockTime', -, late⟩ := State.lockTimeOver_iff.mp over'
    have same : n = m := Option.some.inj (lockTime.symm.trans lockTime')
    omega
  case fails =>
    have over' : u.lockTimeOver = true := State.lockTimeOver_iff.mpr ⟨n, lockTime, starting, late⟩
    have goes : exec (.noLock dt) s = .next u.failStart := by rw [exec_noLock, if_pos over']
    have fails := State.failStart_eq lock
    have station := State.enterStandby_station (u.raise (.lockFailed x)) .noLock
    rw [← fails, State.move_station] at station
    obtain ⟨changed, failed⟩ := State.failStart_reports lock
    obtain ⟨loses, keeps⟩ := State.failStart_clock starting lock
    exact ⟨u.failStart, goes, by rw [station], by rw [station]; rfl, changed, failed, by rw [station],
      by rw [fails, State.enterStandby_rate, State.raise_discipline], by rw [fails]; simp, loses, keeps,
      State.failStart_source starting lock⟩
  case untimed =>
    refine exec_lockTimeout_none ?_
    rcases untimed with none | stopped
    · exact State.timedOut_untimed none
    · exact State.timedOut_unlocking stopped
  case timeout =>
    intro x other
    have goes : exec (.lockTimeout dt) s = .next (u.lockTimeout x) :=
      exec_lockTimeout_some ((State.timedOut_late timer late locks).trans lock)
    obtain ⟨health, bad, good, kept⟩ := State.lockTimeout_marks (u := u) (x := x)
    obtain ⟨fit, unfit⟩ := SourceUnit.marked_failoverTo (u := u.source) (x := x) rfl
    obtain ⟨loses, switches⟩ := SourceUnit.failAction_marked (u := u) (x := x) rfl
    have saysLost (poor : other.enabled = false ∨ other.health ≠ .healthy) (sound : (u.source.get x).health ≠ .unhealthy) :
        Reports u (u.lockTimeout x) (.sourceFailed x .lock .lost) :=
      State.lockTimeout_reports sound (loses (unfit poor))
    have saysSwitched (enabled : other.enabled = true) (healthy : other.health = .healthy)
        (sound : (u.source.get x).health ≠ .unhealthy) : Reports u (u.lockTimeout x) (.sourceFailed x .lock .switched) :=
      State.lockTimeout_reports sound (switches _ (fit enabled healthy))
    have ends : (u.lockTimeout x).source.coasting = false ∧ (u.lockTimeout x).discipline.clock = none := by
      by_cases standby : u.station.state = .standby
      · exact State.lockTimeout_clears standby
      by_cases found : other.enabled = true ∧ other.health = .healthy
      · obtain ⟨-, -, -, -, -, ends⟩ := State.lockTimeout_fit (x := x) standby (fit found.1 found.2) found.2
        exact ends
      · obtain ⟨-, -, -, -, ends⟩ := State.lockTimeout_unfit (x := x) standby rfl
          (unfit (by rwa [not_and_or, Bool.not_eq_true] at found))
        exact ends
    refine ⟨u.lockTimeout x, goes, health, bad, good, kept, ends.1, ends.2, fun active poor => ?stalls,
      fun active enabled healthy => ?restarts, fun standby => ?here⟩
    case stalls =>
      obtain ⟨state, reason, synth, free, -⟩ := State.lockTimeout_unfit (x := x) active rfl (unfit poor)
      exact ⟨state, reason, synth, free, saysLost poor⟩
    case restarts =>
      obtain ⟨state, selected, synth, locks', reports, -⟩ := State.lockTimeout_fit (x := x) active (fit enabled healthy) healthy
      exact ⟨state, selected, synth, locks', reports, saysSwitched enabled healthy⟩
    case here =>
      obtain ⟨station, clears, keeps⟩ := State.lockTimeout_blocks (x := x) standby
      refine ⟨station, clears, keeps, fun enabled healthy => ?_, fun poor => ?_⟩
      · have chosen : (u.source.marked x).choice = x.other := by rw [SourceUnit.choice, fit enabled healthy]; rfl
        have sound : ((u.source.marked x).get x.other).health ≠ .unhealthy := by
          rw [SourceUnit.marked_get_other, show (u.source.get x.other).health = .healthy from healthy]
          exact Health.noConfusion
        obtain ⟨begins, stops⟩ := State.lockTimeout_rule standby x.other chosen
        refine ⟨?_, saysSwitched enabled healthy, fun early => ?_, fun late' => ?_⟩
        · by_cases early : u.config.earlyActivation = true
          · rw [begins early sound]
            rfl
          · rw [stops (.inl (Bool.eq_false_iff.mpr early))]
        · rw [begins early sound]
          exact ⟨rfl, rfl, rfl, rfl⟩
        · rw [stops (.inl late')]
          exact ⟨rfl, rfl, rfl⟩
      · have chosen : (u.source.marked x).choice = x := by
          rw [SourceUnit.choice, unfit poor]
          exact SourceUnit.marked_selected
        obtain ⟨-, stops⟩ := State.lockTimeout_rule standby x chosen
        rw [stops (.inr (by rw [SourceUnit.marked_get]; rfl))]
        exact ⟨rfl, rfl, rfl, rfl, saysLost poor⟩

end Sys2Proof.Machine
end
